-- ==== Sys2Proof/Word.lean ====
section
/-! DEFINITION. The widths of `spec/00_scope.md` R12 and `spec/10_state.md` R22 to R25. -/

namespace Sys2Proof

/-- One byte: LC, OS, SC and every command (R12, R22, R70). Bit 0 has value 1. -/
abbrev Byte := BitVec 8

/-- The nine bits of TimerReload and of the `reload` port (R25, R37). -/
abbrev Reload := BitVec 9

/-- DutyLevel: exactly the eleven values 0 to 10 (R24, D18). -/
abbrev Duty := Fin 11

end Sys2Proof
end

