-- ==== Sys2Proof/Config.lean ====
section
/-! DEFINITION. The implementation parameters of `spec/00_scope.md` R6 to R10 (and R33). No step changes them; the model
carries them in the state, so that a statement about every state is a statement about every configuration
(notes/assumptions/1.md). -/

namespace Sys2Proof

/-- `CNT_OVF` (R7): what an increment of a counter at its maximum does. -/
inductive CntOvf where
  /-- The counter stays at its maximum. -/
  | saturate
  /-- The counter becomes 0. -/
  | wrap
  deriving DecidableEq, Repr

/-- `BWD_MODE` (R10): which BACKWARD rule of R122 holds. -/
inductive BwdMode where
  /-- The literal table of the source's §4.1. -/
  | precheck
  /-- The reading that matches the source's §8 item 3. -/
  | postcheck
  deriving DecidableEq, Repr

/-- The four commands that `CMD_MAP` distributes over the bytes `A`, `D`, `E`, `L` (R8). -/
inductive LetterCmd where
  | backward
  | toggleLow
  | toggleHigh
  | intensityDown
  deriving DecidableEq, Repr

/-- `CMD_MAP` (R8): the command selected by each of the bytes `A`, `D`, `E` and `L`. -/
structure CmdMap where
  a : LetterCmd
  d : LetterCmd
  e : LetterCmd
  l : LetterCmd
  deriving DecidableEq, Repr

/-- The parameters of R6 to R10, as plain data; `Config.wf` of `WellFormed.lean` is their legality. -/
structure Config where
  /-- `SCALE` (R6). -/
  scale : Nat
  /-- `CNT_W` (R7), the width of each AdjustCounter. -/
  cntW : Nat
  /-- `CNT_OVF` (R7). -/
  cntOvf : CntOvf
  /-- `CMD_MAP` (R8). -/
  cmdMap : CmdMap
  /-- `MOVE_CLEARS` (R9). -/
  moveClears : Bool
  /-- `BWD_MODE` (R10). -/
  bwdMode : BwdMode
  deriving DecidableEq, Repr

/-- The default `CMD_MAP` of R8: the pairing of `spec/opcode_table.json`. -/
def CmdMap.specDefault : CmdMap :=
  { a := .backward, d := .toggleLow, e := .toggleHigh, l := .intensityDown }

/-- The default of every parameter, as R6 to R10 give it (notes/assumptions/2.md). -/
def Config.specDefault : Config :=
  { scale := 25, cntW := 8, cntOvf := .saturate, cmdMap := CmdMap.specDefault, moveClears := false, bwdMode := .precheck }

/-- The greatest value of a counter, `2^CNT_W - 1` (R7, R145). -/
def Config.cntMax (c : Config) : Nat :=
  2 ^ c.cntW - 1

end Sys2Proof
end

