-- ==== Sys2Proof/Syntax.lean ====
section
/-! DEFINITION. The commands of `spec/opcode_table.json`, one constructor per row (`spec/00_scope.md` R15,
`spec/30_encoding.md` R73). No command has an operand field (R71); the last row stands for many bytes and its constructor keeps
the one that selected it, so that no bit of an encoding is dropped (notes/assumptions/12.md). -/

namespace Sys2Proof

/-- A command of the block: the set `Cmd` of R15. -/
inductive Instr where
  /-- FORWARD (R120). -/
  | forward
  /-- BACKWARD (R122). -/
  | backward
  /-- TOGGLE_LOW (R124). -/
  | toggleLow
  /-- TOGGLE_HIGH (R126). -/
  | toggleHigh
  /-- INTENSITY_UP (R141). -/
  | intensityUp
  /-- INTENSITY_DOWN (R143). -/
  | intensityDown
  /-- DEFAULT (R170), selected by the byte `b`, which its meaning ignores (R75). -/
  | defaultCmd (b : Byte)
  deriving DecidableEq, Repr

end Sys2Proof
end

