-- ==== Sys2Proof/WellFormed.lean ====
section
/-! DEFINITION. What a legal command and a legal configuration are: `spec/30_encoding.md` R72, R73; `spec/00_scope.md` R6 to
R8; `spec/70_reset_and_hazards.md` R255. -/

namespace Sys2Proof

/-- The six recognised bytes of R72, `F A D E P L`, as ASCII (G1 of `spec/93_implementation_defined.md`). -/
def isCommandByte (b : Byte) : Bool :=
  b == 0x46#8 || b == 0x41#8 || b == 0x44#8 || b == 0x45#8 || b == 0x50#8 || b == 0x4C#8

/-- A DEFAULT is selected only by a byte that R72 does not list; the other rows have no operand to check (R71). -/
def Instr.wf : Instr → Bool
  | .forward => true
  | .backward => true
  | .toggleLow => true
  | .toggleHigh => true
  | .intensityUp => true
  | .intensityDown => true
  | .defaultCmd b => !isCommandByte b

/-- R6 and R255: `1 <= SCALE <= 25`. -/
def Config.scaleOk (c : Config) : Bool :=
  decide (1 ≤ c.scale) && decide (c.scale ≤ 25)

/-- R7: `CNT_W >= 1`. -/
def Config.cntWOk (c : Config) : Bool :=
  decide (1 ≤ c.cntW)

/-- R8: a one-to-one map of `A, D, E, L` onto the four commands. -/
def CmdMap.wf (m : CmdMap) : Bool :=
  m.a != m.d && m.a != m.e && m.a != m.l && m.d != m.e && m.d != m.l && m.e != m.l

/-- A configuration that the spec admits (R6 to R8). R255 and I11 ask for the refusal of a bad `SCALE`; that `step` refuses the
others too is a DESIGN CHOICE (notes/assumptions/13.md). -/
def Config.wf (c : Config) : Bool :=
  c.scaleOk && c.cntWOk && c.cmdMap.wf

end Sys2Proof
end

