-- ==== Sys2Proof/Decode.lean ====
section
/-! DEFINITION. The decoder and the encoder of `spec/30_encoding.md` R70 to R76. -/

namespace Sys2Proof

/-- The command that a letter of `CMD_MAP` selects (R8). -/
def LetterCmd.instr : LetterCmd → Instr
  | .backward => .backward
  | .toggleLow => .toggleLow
  | .toggleHigh => .toggleHigh
  | .intensityDown => .intensityDown

/-- `decode(b)`, the table of R73: the first matching row wins, and every byte has a row (R75). It reads the byte and `CMD_MAP`
alone (R74). -/
def decode (m : CmdMap) (b : Byte) : Instr :=
  if b = 0x46#8 then .forward
  else if b = 0x41#8 then m.a.instr
  else if b = 0x44#8 then m.d.instr
  else if b = 0x45#8 then m.e.instr
  else if b = 0x50#8 then .intensityUp
  else if b = 0x4C#8 then m.l.instr
  else .defaultCmd b

/-- Why a string of bits is no command at all. -/
inductive DecodeError where
  /-- Every command is exactly one byte (R70, R76), and this is not one byte. -/
  | notOneByte
  deriving DecidableEq, Repr

/-- A string of `nbits` bits with value `w`, read as one command: rejected by name unless it is one byte (R76). -/
def decodeBits (m : CmdMap) (nbits w : Nat) : Except DecodeError Instr :=
  if nbits = 8 ∧ w < 256 then .ok (decode m (BitVec.ofNat 8 w)) else .error .notOneByte

/-- The decoder on a row of `spec/opcode_table.json`, which is written for the default `CMD_MAP`. -/
def decodeTableWord (nbits w : Nat) : Option Instr :=
  match decodeBits CmdMap.specDefault nbits w with
  | .ok i => some i
  | .error .notOneByte => none

/-- The byte of `A, D, E, L` that `CMD_MAP` gives to a command (R8). -/
def letterFor (m : CmdMap) (c : LetterCmd) : Byte :=
  if m.a = c then 0x41#8
  else if m.d = c then 0x44#8
  else if m.e = c then 0x45#8
  else 0x4C#8

/-- The byte of a command, from the same table (R73). A DEFAULT is any one of many bytes: the one it holds. -/
def encode (m : CmdMap) : Instr → Byte
  | .forward => 0x46#8
  | .backward => letterFor m .backward
  | .toggleLow => letterFor m .toggleLow
  | .toggleHigh => letterFor m .toggleHigh
  | .intensityUp => 0x50#8
  | .intensityDown => letterFor m .intensityDown
  | .defaultCmd b => b

end Sys2Proof
end

