-- ==== Sys2Proof/Machine/State.lean ====
section
/-! DEFINITION. The architectural state of `spec/10_state.md`, the output events of R36 and R38, the reset of
`spec/70_reset_and_hazards.md` R240 and R241, and the ways a step can stop. -/

namespace Sys2Proof.Machine

/-- PH, the controller phase (R29). The spec's encoding 3 is never written; the type lacks it (I7). -/
inductive Phase where
  | sample
  | commit
  | delay
  deriving DecidableEq, Repr

/-- The kinds of status line (R38). -/
inductive StatusKind where
  | frente
  | atras
  | piscaMenos
  | piscaMais
  /-- `DUTY, p`: the duty line for the percentage `p`. -/
  | duty (p : Nat)
  | banner
  deriving DecidableEq, Repr

/-- The output events (R36). No other event exists. -/
inductive Event where
  /-- `SET_RELOAD(v)`: the block calls the timer's `set_reload`. -/
  | setReload (v : Reload)
  /-- `STATUS(k)`: the block asks the transport to send a status line. -/
  | status (k : StatusKind)
  /-- `DELAY_REQ`: the block starts its 500 ms pause (R39). -/
  | delayReq
  deriving DecidableEq, Repr

/-- One move of an execution (R20). In every phase exactly one step of CTRL or DLY is enabled, so a move is an RX step or that
one. -/
inductive Move where
  /-- RX writes the byte `b` to LC (R53). -/
  | rx (b : Byte)
  /-- The one CTRL or DLY step that PH enables: SAMPLE, COMMIT or `delay_done`. -/
  | own
  deriving DecidableEq, Repr

/-- The machine. The first nine fields are the spec's; the last two are the model's own (notes/assumptions/1.md and 3.md). -/
structure State where
  /-- LC, LatestCommand (R22); 0x00 is none. -/
  lc : Byte
  /-- OS, OutputState (R23). -/
  os : Byte
  /-- DL, DutyLevel (R24). -/
  dl : Duty
  /-- TR, TimerReload (R25). -/
  tr : Reload
  /-- CI, the increase AdjustCounter (R26), of `CNT_W` bits. -/
  ci : Nat
  /-- CD, the decrease AdjustCounter (R27), of `CNT_W` bits. -/
  cd : Nat
  /-- SC, the sampled command (R28). -/
  sc : Byte
  /-- PH, the controller phase (R29). -/
  ph : Phase
  /-- The output event trace (R36), oldest event first. -/
  trace : List Event
  /-- The parameters (R33). The model's own field; no step changes it. -/
  cfg : Config
  /-- The moves still to come. The model's own field; when it is empty RX is silent and the block's own step comes next. -/
  sched : List Move
  deriving DecidableEq, Repr

/-- No step of the block faults: it raises no exception and has no fault codes (R200, R206). -/
inductive Fault where
  deriving DecidableEq, Repr

/-- Why the model declines to run. -/
inductive Refusal where
  /-- An instruction without a meaning yet. Raised by no arm of `exec`. Safe: the model stops where the block goes on. -/
  | notModelled (mnemonic : String)
  /-- Raised by `step` when `SCALE` is outside R6, as R255 asks ("A model refuses such a configuration"), and, by the model's
  choice, when `CNT_W` or `CMD_MAP` is outside R7 or R8 (notes/assumptions/13.md). Safe: the model stops where such a machine would
  go on. -/
  | illegalConfiguration
  deriving DecidableEq, Repr

/-- The state right after reset and its boot event (R240, R241), for a given configuration. SC has no reset value in the spec;
0x00 is the model's (notes/assumptions/6.md). -/
def State.resetWith (cfg : Config) : State :=
  { lc := 0x00#8
    os := 0x01#8
    dl := 1
    tr := BitVec.ofNat 9 (256 - cfg.scale)
    ci := 0
    cd := 0
    sc := 0x00#8
    ph := .sample
    trace := [.status .banner]
    cfg := cfg
    sched := [] }

/-- Reset under the default parameters of R6 to R10 (notes/assumptions/2.md). -/
def State.reset : State :=
  State.resetWith Config.specDefault

/-! One update per register (`R <- v`, R14); `Sys2Proof/Laws/State.lean` says what each leaves alone. -/

/-- `LC <- v`. -/
def State.setLc (s : State) (v : Byte) : State := { s with lc := v }

/-- `OS <- v`. -/
def State.setOs (s : State) (v : Byte) : State := { s with os := v }

/-- `DL <- v`. -/
def State.setDl (s : State) (v : Duty) : State := { s with dl := v }

/-- `TR <- v`. -/
def State.setTr (s : State) (v : Reload) : State := { s with tr := v }

/-- `CI <- v`. -/
def State.setCi (s : State) (v : Nat) : State := { s with ci := v }

/-- `CD <- v`. -/
def State.setCd (s : State) (v : Nat) : State := { s with cd := v }

/-- `SC <- v`. -/
def State.setSc (s : State) (v : Byte) : State := { s with sc := v }

/-- `PH <- v`. -/
def State.setPh (s : State) (v : Phase) : State := { s with ph := v }

/-- `emit e` (R14): the event goes to the end of the trace. -/
def State.emit (s : State) (e : Event) : State := { s with trace := s.trace ++ [e] }

/-- The moves still to come. -/
def State.setSched (s : State) (v : List Move) : State := { s with sched := v }

end Sys2Proof.Machine
end

