-- ==== Sys2Proof/Machine/Flags.lean ====
section
/-! DEFINITION. The block stores no flags (`spec/10_state.md` R31); it evaluates these two tests inside a COMMIT. -/

namespace Sys2Proof.Machine

/-- "increase-counter == 0": this INTENSITY_UP is an edge (R141). -/
def upEdge (s : State) : Bool :=
  s.ci == 0

/-- "decrease-counter == 0": this INTENSITY_DOWN is an edge (R143). -/
def downEdge (s : State) : Bool :=
  s.cd == 0

end Sys2Proof.Machine
end

