-- ==== Sys2Proof/Machine/Operands.lean ====
section
/-! DEFINITION. The values the commands compute of their implicit operands (`spec/30_encoding.md` R71): the OS patterns of
`spec/41_pattern_commands.md` and the duty, reload and counter values of `spec/42_intensity_commands.md`. -/

namespace Sys2Proof.Machine

/-- OS after FORWARD (R120): from the highest bit back to 1, else one place left. -/
def forwardOs (os : Byte) : Byte :=
  if 128 ≤ os.toNat then 0x01#8 else os <<< 1

/-- OS after BACKWARD (R122), in either `BWD_MODE`. -/
def backwardOs (mode : BwdMode) (os : Byte) : Byte :=
  match mode with
  | .precheck => if os = 0#8 then 0x80#8 else os >>> 1
  | .postcheck => if os >>> 1 = 0#8 then 0x80#8 else os >>> 1

/-- OS after TOGGLE_LOW (R124): bits 0 to 3 inverted. -/
def toggleLowOs (os : Byte) : Byte :=
  os ^^^ 0x0F#8

/-- OS after TOGGLE_HIGH (R126): bits 4 to 7 inverted. -/
def toggleHighOs (os : Byte) : Byte :=
  os ^^^ 0xF0#8

/-- DL after an INTENSITY_UP edge (R141): `min(DL + 1, 10)`. -/
def dutyUp (d : Duty) : Duty :=
  ⟨min (d.val + 1) 10, by omega⟩

/-- DL after an INTENSITY_DOWN edge (R143): `max(DL - 1, 0)`, the subtraction exact before the `max`. -/
def dutyDown (d : Duty) : Duty :=
  ⟨(max ((d.val : Int) - 1) 0).toNat, by omega⟩

/-- The converter's value (R146): `256 - d * SCALE`, exact for every legal `SCALE` (R6). -/
def reloadOf (cfg : Config) (d : Duty) : Reload :=
  BitVec.ofNat 9 (256 - d.val * cfg.scale)

/-- The percentage of the duty line (R38, R148): `DL * 10`. -/
def percent (d : Duty) : Nat :=
  d.val * 10

/-- `inc_cnt(v)` (R145), on a counter of `CNT_W` bits. -/
def incCnt (cfg : Config) (v : Nat) : Nat :=
  if v < cfg.cntMax then v + 1
  else
    match cfg.cntOvf with
    | .saturate => v
    | .wrap => 0

end Sys2Proof.Machine
end

