-- ==== Sys2Proof/Machine/Ops.lean ====
section
/-! DEFINITION. The operations the commands and the agents share: the parts of COMMIT of `spec/40_iteration.md` R102, the tail
of the movement commands R128, the converter R146, and the steps of SAMPLE R101, RX `spec/20_memory.md` R53 and DLY R109. The
block has no exception to take and none to return from (R200, R206, R207): the RX write is its one asynchronous event (R204). -/

namespace Sys2Proof.Machine

/-- The none value of LC (R22, D5). -/
def noneByte : Byte := 0x00#8

/-- The set `MOVEMENT` of R15: the commands with a 500 ms pause. -/
def isMovement : Instr → Bool
  | .forward => true
  | .backward => true
  | .toggleLow => true
  | .toggleHigh => true
  | .intensityUp => false
  | .intensityDown => false
  | .defaultCmd _ => false

/-- `c == INTENSITY_UP`. -/
def isUp : Instr → Bool
  | .forward => false
  | .backward => false
  | .toggleLow => false
  | .toggleHigh => false
  | .intensityUp => true
  | .intensityDown => false
  | .defaultCmd _ => false

/-- `c == INTENSITY_DOWN`. -/
def isDown : Instr → Bool
  | .forward => false
  | .backward => false
  | .toggleLow => false
  | .toggleHigh => false
  | .intensityUp => false
  | .intensityDown => true
  | .defaultCmd _ => false

/-- `move_tail(k)` (R128): both counters cleared, LC cleared under `MOVE_CLEARS`, the status event. -/
def moveTail (k : StatusKind) (s : State) : State :=
  let cleared := (s.setCi 0).setCd 0
  (if s.cfg.moveClears then cleared.setLc noneByte else cleared).emit (.status k)

/-- `convert(d)` (R146): TR and its `SET_RELOAD` event. -/
def convert (d : Duty) (s : State) : State :=
  (s.setTr (reloadOf s.cfg d)).emit (.setReload (reloadOf s.cfg d))

/-- What an edge of an intensity command does with the new duty level (R141, R143): DL, the converter, the duty status. -/
def setDuty (d : Duty) (s : State) : State :=
  (convert d (s.setDl d)).emit (.status (.duty (percent d)))

/-- The post-dispatch counter reset (R105), on the sampled command (R106). -/
def postDispatch (c : Instr) (s : State) : State :=
  let up := if isUp c then s else s.setCi 0
  if isDown c then up else up.setCd 0

/-- The phase update (R107). -/
def phaseUpdate (c : Instr) (s : State) : State :=
  if isMovement c then (s.emit .delayReq).setPh .delay else s.setPh .sample

/-- What a COMMIT does after the body of the command `c` (R102). -/
def finishCommit (c : Instr) (s : State) : State :=
  phaseUpdate c (postDispatch c s)

/-- SAMPLE (R101): the one read of LC in an iteration; LC keeps its value (R54). -/
def sampleCommand (s : State) : State :=
  (s.setSc s.lc).setPh .commit

/-- `delay_done` (R109): the DLY agent ends the pause. -/
def delayDone (s : State) : State :=
  s.setPh .sample

/-- The RX step (R53): the last byte wins, and nothing else changes (R206). -/
def rxWrite (b : Byte) (s : State) : State :=
  s.setLc b

end Sys2Proof.Machine
end

