-- ==== Sys2Proof/Machine/DefaultCommand.lean ====
section
/-! DEFINITION. The default command of `spec/43_default_command.md`, as the COMMIT that decodes it (R102). -/

namespace Sys2Proof.Machine

/-- DEFAULT (R170), for any byte that selects it: LC is cleared without a look at what it holds (R55). -/
def execDefault (b : Byte) (s : State) : Host.Outcome State Fault Refusal :=
  .next (finishCommit (.defaultCmd b) (s.setLc noneByte))

end Sys2Proof.Machine
end

