-- ==== Sys2Proof/Machine/Intensity.lean ====
section
/-! DEFINITION. The intensity commands of `spec/42_intensity_commands.md`, each as the COMMIT that decodes it (R102). -/

namespace Sys2Proof.Machine

/-- INTENSITY_UP (R141): a duty change on an edge only, the own counter's increment always. -/
def execIntensityUp (s : State) : Host.Outcome State Fault Refusal :=
  let edge := if upEdge s then setDuty (dutyUp s.dl) s else s
  .next (finishCommit .intensityUp (edge.setCi (incCnt s.cfg s.ci)))

/-- INTENSITY_DOWN (R143): a duty change on an edge only, the own counter's increment always. -/
def execIntensityDown (s : State) : Host.Outcome State Fault Refusal :=
  let edge := if downEdge s then setDuty (dutyDown s.dl) s else s
  .next (finishCommit .intensityDown (edge.setCd (incCnt s.cfg s.cd)))

end Sys2Proof.Machine
end

