-- ==== Sys2Proof/Machine/Pattern.lean ====
section
/-! DEFINITION. The output-pattern commands of `spec/41_pattern_commands.md`, each as the COMMIT that decodes it (R102). -/

namespace Sys2Proof.Machine

/-- FORWARD (R120). -/
def execForward (s : State) : Host.Outcome State Fault Refusal :=
  .next (finishCommit .forward (moveTail .frente (s.setOs (forwardOs s.os))))

/-- BACKWARD (R122). -/
def execBackward (s : State) : Host.Outcome State Fault Refusal :=
  .next (finishCommit .backward (moveTail .atras (s.setOs (backwardOs s.cfg.bwdMode s.os))))

/-- TOGGLE_LOW (R124). -/
def execToggleLow (s : State) : Host.Outcome State Fault Refusal :=
  .next (finishCommit .toggleLow (moveTail .piscaMenos (s.setOs (toggleLowOs s.os))))

/-- TOGGLE_HIGH (R126). -/
def execToggleHigh (s : State) : Host.Outcome State Fault Refusal :=
  .next (finishCommit .toggleHigh (moveTail .piscaMais (s.setOs (toggleHighOs s.os))))

end Sys2Proof.Machine
end

