-- ==== Sys2Proof/Machine/Dispatch.lean ====
section
/-! DEFINITION. The dispatch of `spec/40_iteration.md` R103: exactly one meaning runs, the one the command selects. -/

namespace Sys2Proof.Machine

def exec (i : Instr) (s : State) : Host.Outcome State Fault Refusal :=
  match i with
  | .forward => Sys2Proof.Machine.execForward s
  | .backward => Sys2Proof.Machine.execBackward s
  | .toggleLow => Sys2Proof.Machine.execToggleLow s
  | .toggleHigh => Sys2Proof.Machine.execToggleHigh s
  | .intensityUp => Sys2Proof.Machine.execIntensityUp s
  | .intensityDown => Sys2Proof.Machine.execIntensityDown s
  | .defaultCmd b => Sys2Proof.Machine.execDefault b s

end Sys2Proof.Machine
end

