-- ==== Sys2Proof/Machine/Iteration.lean ====
section
/-! DEFINITION. The agents' steps of `spec/40_iteration.md` and `spec/10_state.md` R20, on top of `exec`, and how a command is
placed where the next COMMIT reads it. -/

namespace Sys2Proof.Machine

/-- The command of the next COMMIT: `decode(SC)` (R102), under the machine's `CMD_MAP`. -/
def sampledInstr (s : State) : Instr :=
  decode s.cfg.cmdMap s.sc

/-- The CTRL or DLY step that PH enables (R101, R102, R109); CTRL takes none during a pause (R110). -/
def ownStep (s : State) : Host.Outcome State Fault Refusal :=
  match s.ph with
  | .sample => .next (sampleCommand s)
  | .commit => exec (sampledInstr s) s
  | .delay => .next (delayDone s)

/-- The move that comes next; with none listed RX is silent and the block goes on (R112). -/
def nextMove : List Move → Move
  | [] => .own
  | m :: _ => m

/-- One move of an execution (R20). -/
def takeMove (m : Move) (s : State) : Host.Outcome State Fault Refusal :=
  match m with
  | .rx b => .next (rxWrite b s)
  | .own => ownStep s

/-- One step: the next move is taken off the list and made. An illegal configuration is refused (R255); that the refusal stands
here, and covers R7 and R8 beside R6, is a DESIGN CHOICE (notes/assumptions/13.md). -/
def stepOnce (s : State) : Host.Outcome State Fault Refusal :=
  if s.cfg.wf then takeMove (nextMove s.sched) (s.setSched s.sched.tail) else .refused .illegalConfiguration

/-- The byte whose low `nbits` bits are those of `w`. -/
def fetchByte (nbits w : Nat) : Byte :=
  BitVec.ofNat 8 (w % 2 ^ nbits)

/-- The moves still to come, with the block's own step the first of them. -/
def ownFirst (ms : List Move) : List Move :=
  match nextMove ms with
  | .rx _ => .own :: ms
  | .own => ms

/-- The byte stands in SC, COMMIT is the next step of CTRL, and no RX step comes before it (notes/assumptions/5.md). -/
def placeCommand (b : Byte) (s : State) : State :=
  ((s.setSc b).setPh .commit).setSched (ownFirst s.sched)

end Sys2Proof.Machine
end

