-- ==== Sys2Proof/Machine/Step.lean ====
section
/-! DEFINITION. The machine's step (`spec/10_state.md` R20) and the placing of one command before it. -/

namespace Sys2Proof.Machine

/-- One indivisible step of one agent (R20, R57). -/
def step (s : State) : Host.Outcome State Fault Refusal :=
  stepOnce s

/-- `s` about to COMMIT the command whose bits are `w`. -/
def State.withFetchWord (s : State) (nbits w : Nat) : State :=
  placeCommand (fetchByte nbits w) s

end Sys2Proof.Machine
end

