-- ==== Sys2Proof/Machine/Ports.lean ====
section
/-! DEFINITION. The outputs of `spec/10_state.md` R35 to R38: levels read off the state, and the bytes of the status lines. -/

namespace Sys2Proof.Machine

/-- Output `led[i]` (R35). -/
def State.led (s : State) (i : Fin 8) : Bool :=
  s.os.getLsbD i.val

/-- Output `reload[8:0]` (R37). -/
def State.reload (s : State) : Reload :=
  s.tr

/-- `reload[7:0]`, what a platform with an 8-bit timer passes on (R37, R254). -/
def State.reload8 (s : State) : Byte :=
  s.tr.setWidth 8

/-- The exact text of a status line (R38); the percentage in decimal, without leading zeros or padding (D12). -/
def statusText : StatusKind → String
  | .frente => "FRENTE"
  | .atras => "ATRAS"
  | .piscaMenos => "PISCANDO MENOS SIGNIFICATIVO"
  | .piscaMais => "PISCANDO MAIS SIGNIFICATIVO"
  | .duty p => "Duty Cycle: " ++ Nat.repr p ++ "%"
  | .banner => "Pressionar as teclas F, A, D, E, P ou L"

/-- The bytes of a status line: its text in ASCII, then line-feed, then carriage-return (R38, G2). -/
def statusBytes (k : StatusKind) : List Byte :=
  (statusText k).toList.map (fun c => BitVec.ofNat 8 c.toNat) ++ [0x0A#8, 0x0D#8]

/-- What an event asks the transport to send (R36): only a status event asks for anything. -/
def eventBytes : Event → List Byte
  | .setReload _ => []
  | .status k => statusBytes k
  | .delayReq => []

/-- All the bytes the block has asked the transport to send, in order (R211). -/
def State.serialOut (s : State) : List Byte :=
  s.trace.flatMap eventBytes

end Sys2Proof.Machine
end

