-- ==== Sys2Proof/Machine/Script.lean ====
section
/-! DEFINITION. The scripts of `spec/30_encoding.md` R77: the agents' actions, each with the condition that enables it, and the
pseudo-actions with their expansions. `step` takes the same actions, chosen by the schedule. R255 names no place for the refusal of
an illegal configuration; DESIGN CHOICE (notes/assumptions/13.md): `step` refuses it, and the actions of a script do not look at it. -/

namespace Sys2Proof.Machine

/-- The actions of R77. -/
inductive Action where
  /-- The reset of R240, then the boot event of R241. -/
  | reset
  /-- One RX step writing `b` (R53). -/
  | rx (b : Byte)
  /-- One CTRL SAMPLE step (R101). -/
  | sample
  /-- One CTRL COMMIT step (R102). -/
  | commit
  /-- One DLY step (R109). -/
  | delayDone
  deriving DecidableEq, Repr

/-- When an action can be taken (R77, R101, R102, R109); RX is always enabled (R204). -/
def actionEnabled (a : Action) (s : State) : Bool :=
  match a with
  | .reset => true
  | .rx _ => true
  | .sample => s.ph == .sample
  | .commit => s.ph == .commit
  | .delayDone => s.ph == .delay

/-- What an enabled action does. A reset keeps the configuration, which no run changes (R33). DESIGN CHOICE: no action checks
`Config.wf`, which only `step` does (R255, notes/assumptions/13.md). -/
def act (a : Action) (s : State) : Host.Outcome State Fault Refusal :=
  match a with
  | .reset => .next ((State.resetWith s.cfg).setSched s.sched)
  | .rx b => .next (rxWrite b s)
  | .sample => .next (sampleCommand s)
  | .commit => exec (sampledInstr s) s
  | .delayDone => .next (delayDone s)

/-- One action of a script: none where it is not enabled. DESIGN CHOICE: it runs on under an illegal configuration, which only
`step` refuses (R255, notes/assumptions/13.md). -/
def scriptStep (a : Action) (s : State) : Option State :=
  if actionEnabled a s then
    match act a s with
    | .next t => some t
    | .fault _ => none
    | .refused _ => none
  else none

/-- `iter`: `sample`, `commit`, then `delay_done` if the COMMIT left PH at DELAY (R77, R100). -/
def scriptIter (s : State) : Option State :=
  (scriptStep .sample s).bind fun s1 =>
    (scriptStep .commit s1).bind fun s2 =>
      if s2.ph = .delay then scriptStep .delayDone s2 else some s2

/-- `iter N`. -/
def scriptIterN : Nat → State → Option State
  | 0, s => some s
  | n + 1, s => (scriptIter s).bind (scriptIterN n)

/-- `press X`: `rx X`, then `iter`. -/
def scriptPress (b : Byte) (s : State) : Option State :=
  (scriptStep (.rx b) s).bind scriptIter

/-- `release`: `rx 0x00`, then `iter`. -/
def scriptRelease (s : State) : Option State :=
  scriptPress 0x00#8 s

end Sys2Proof.Machine
end

