-- ==== Sys2Proof/Safety.lean ====
section
/-! DEFINITION. What a sound state and a sound run of the block are, in the terms the statements use: the invariants of
`spec/10_state.md` R32, the shape of the event trace (R36, R107, R148), and a list of commands committed one after the other. -/

namespace Sys2Proof.Machine

/-- The invariants of R32 (items 1 and 3 are the types of DL and PH), with the legality of the configuration (R6 to R8) and the
widths of the counters (R26, R27). After a COMMIT and until the next SAMPLE, SC still holds the byte that COMMIT decoded, which
is how item 4 names "the last COMMIT". -/
structure State.Inv (s : State) : Prop where
  /-- The configuration is one the spec admits. -/
  cfgWf : s.cfg.wf = true
  /-- Item 2: `TR == 256 - DL * SCALE`, exactly. -/
  reload : s.tr.toNat + s.dl.val * s.cfg.scale = 256
  /-- CI fits its `CNT_W` bits. -/
  ciWidth : s.ci ≤ s.cfg.cntMax
  /-- CD fits its `CNT_W` bits. -/
  cdWidth : s.cd ≤ s.cfg.cntMax
  /-- Item 4 for CI. -/
  ciCleared : s.ph ≠ .commit → isUp (sampledInstr s) = false → s.ci = 0
  /-- Item 4 for CD. -/
  cdCleared : s.ph ≠ .commit → isDown (sampledInstr s) = false → s.cd = 0
  /-- Item 5: at most one counter is non-zero. -/
  exclusive : s.ci = 0 ∨ s.cd = 0
  /-- A pause follows a movement command only (R107). -/
  pauseIsMovement : s.ph = .delay → isMovement (sampledInstr s) = true

/-- The status kinds of the four movement commands (R38). -/
def isMoveStatus : StatusKind → Bool
  | .frente => true
  | .atras => true
  | .piscaMenos => true
  | .piscaMais => true
  | .duty _ => false
  | .banner => false

/-- A trace after the boot event: each edge reports its reload and then its percentage, which belong to one duty level of 0 to
10; each movement reports its status and then asks for its pause; nothing else occurs. -/
def traceBlocks (cfg : Config) : List Event → Bool
  | [] => true
  | .setReload v :: .status (.duty p) :: es =>
    p ≤ 100 && p % 10 == 0 && v.toNat + p / 10 * cfg.scale == 256 && traceBlocks cfg es
  | .status k :: .delayReq :: es => isMoveStatus k && traceBlocks cfg es
  | _ => false

/-- A sound trace: the boot event first (R241), then such blocks. -/
def State.traceOk (s : State) : Bool :=
  match s.trace with
  | .status .banner :: es => traceBlocks s.cfg es
  | _ => false

/-- The reload value that the events so far have handed to the timer, starting from the one it has at reset (R242). -/
def reloadOfEvents : Reload → List Event → Reload
  | v, [] => v
  | _, .setReload w :: es => reloadOfEvents w es
  | v, .status _ :: es => reloadOfEvents v es
  | v, .delayReq :: es => reloadOfEvents v es

/-- Whether the COMMIT of a command writes LC (R55): DEFAULT always, a movement command under `MOVE_CLEARS`. -/
def commitClearsLc (cfg : Config) (i : Instr) : Bool :=
  match i with
  | .forward => cfg.moveClears
  | .backward => cfg.moveClears
  | .toggleLow => cfg.moveClears
  | .toggleHigh => cfg.moveClears
  | .intensityUp => false
  | .intensityDown => false
  | .defaultCmd _ => true

/-- The commands of a list committed one after the other, stopping at the first that does not answer a next state. -/
def commitAll : List Instr → State → Host.Outcome State Fault Refusal
  | [], s => .next s
  | i :: is, s =>
    match exec i s with
    | .next t => commitAll is t
    | .fault r => .fault r
    | .refused r => .refused r

/-- Each command of a list followed by `c`. -/
def eachThen (c : Instr) : List Instr → List Instr
  | [] => []
  | i :: is => i :: c :: eachThen c is

/-- How many duty lines a trace holds. -/
def dutyLines : List Event → Nat
  | [] => 0
  | .status (.duty _) :: es => dutyLines es + 1
  | _ :: es => dutyLines es

end Sys2Proof.Machine
end

