-- ==== Sys2Proof/Certificates/Slice0/Obligations.lean ====
section
/-! DEFINITION. The statements for the provers. "Completes" is always the conclusion `exec i s = .next t`; a clause that rests on
one of the spec's own decisions (D<n> of `spec/92_eei_decisions.md`) or on a choice of the model (notes/assumptions) names it.
The block has no memory (R50): the frame of a command is every field of the state. -/

open Sys2Proof Sys2Proof.Machine

/-! ### Encoding -/

/-- The bytes of R73 under the default `CMD_MAP` (D2), written out bit by bit, select their commands; so do the rows of
`spec/opcode_table.json`. -/
def Obligations.DecodeTableWords : Prop :=
  decode CmdMap.specDefault 0b01000110#8 = .forward ∧
  decode CmdMap.specDefault 0b01000001#8 = .backward ∧
  decode CmdMap.specDefault 0b01000100#8 = .toggleLow ∧
  decode CmdMap.specDefault 0b01000101#8 = .toggleHigh ∧
  decode CmdMap.specDefault 0b01010000#8 = .intensityUp ∧
  decode CmdMap.specDefault 0b01001100#8 = .intensityDown ∧
  decode CmdMap.specDefault 0b01110000#8 = .defaultCmd 0x70#8 ∧
  decodeTableWord 8 0x45 = some .toggleHigh ∧
  decodeTableWord 8 0x00 = some (.defaultCmd 0x00#8)

/-- Decode and encode agree for every command, under every legal `CMD_MAP` (R8, D2): no command's byte is read as another
command. The byte a DEFAULT holds is the model's operand (notes/assumptions/12.md). -/
def Obligations.DecodeEncodeRoundTrip : Prop :=
  ∀ (m : CmdMap) (i : Instr), m.wf = true → i.wf = true → decode m (encode m i) = i

/-- Every byte is the encoding of the command it selects, and that command is well-formed: no bit of a byte is dropped, under
every legal `CMD_MAP` (R8, D2; notes/assumptions/12.md). -/
def Obligations.EncodeDecodeRoundTrip : Prop :=
  ∀ (m : CmdMap) (b : Byte), m.wf = true → (decode m b).wf = true ∧ encode m (decode m b) = b

/-- Under every legal `CMD_MAP` (D2) exactly 250 of the 256 bytes select DEFAULT (R75), the lowercase letters among them (R172),
and each of the other six commands is selected by exactly one byte (R8, R74). -/
def Obligations.DefaultBytesAre250 : Prop :=
  ∀ m : CmdMap, m.wf = true →
    ((List.range 256).filter fun n => decide (decode m (BitVec.ofNat 8 n) = .defaultCmd (BitVec.ofNat 8 n))).length = 250 ∧
    (∀ b : Byte, b ∈ [0x66#8, 0x61#8, 0x64#8, 0x65#8, 0x70#8, 0x6C#8] → decode m b = .defaultCmd b) ∧
    ∀ i : Instr, i ∈ [Instr.forward, .backward, .toggleLow, .toggleHigh, .intensityUp, .intensityDown] →
      ((List.range 256).filter fun n => decide (decode m (BitVec.ofNat 8 n) = i)).length = 1

/-! ### The agents' steps -/

/-- A step runs the decoded command: with PH at COMMIT and the block's own step next, `step` is `exec` of the command that SC
decodes to, on the state with that move taken off the schedule (R102; the schedule is notes/assumptions/3.md). -/
def Obligations.StepRunsDecodedInstruction : Prop :=
  ∀ s : State, s.cfg.wf = true → s.ph = .commit → nextMove s.sched = .own →
    step s = exec (decode s.cfg.cmdMap s.sc) { s with sched := s.sched.tail }

/-- SAMPLE (R101): SC takes LC, PH becomes COMMIT, no event, nothing else; and it is the one read of LC: the other steps of CTRL
and DLY do the same whatever LC holds, but for LC itself. (Whose move it is, the schedule says: notes/assumptions/3.md.) -/
def Obligations.SampleIsTheOneReadOfLatestCommand : Prop :=
  (∀ s : State, s.cfg.wf = true → s.ph = .sample → nextMove s.sched = .own →
    step s = .next { s with sc := s.lc, ph := .commit, sched := s.sched.tail }) ∧
  ∀ (s t : State) (b : Byte), s.ph ≠ .sample → nextMove s.sched = .own → step s = .next t →
    ∃ u, step { s with lc := b } = .next u ∧ { u with lc := t.lc } = t

/-- `delay_done` (R109; that a step of DLY stands for the pause is D14): PH becomes SAMPLE and nothing else changes. -/
def Obligations.DelayDoneReturnsToSample : Prop :=
  ∀ s : State, s.cfg.wf = true → s.ph = .delay → nextMove s.sched = .own →
    step s = .next { s with ph := .sample, sched := s.sched.tail }

/-- The RX step (R53): in every phase, whatever LC held, LC takes the byte and nothing else changes. (Whose move it is, the
schedule says: notes/assumptions/3.md.) -/
def Obligations.RxWritesLatestCommandOnly : Prop :=
  ∀ (s : State) (b : Byte) (rest : List Move), s.cfg.wf = true → s.sched = .rx b :: rest →
    step s = .next { s with lc := b, sched := rest }

/-- The block raises no exception and is total (R200): there is no fault, every command completes in every state, and so does
every step of a legal machine. -/
def Obligations.BlockIsTotal : Prop :=
  (Fault → False) ∧
  (∀ (i : Instr) (s : State), ∃ t, exec i s = .next t) ∧
  ∀ s : State, s.cfg.wf = true → ∃ t, step s = .next t

/-- R255: with `SCALE > 25` the value `256 - 10*SCALE` is negative and the model refuses; so it does with `SCALE == 0`. That
`step` is where it refuses is the model's choice (notes/assumptions/13.md). -/
def Obligations.IllegalScaleRefused : Prop :=
  (∀ c : Config, 25 < c.scale → (256 : Int) - 10 * c.scale < 0) ∧
  ∀ s : State, 25 < s.cfg.scale ∨ s.cfg.scale = 0 → step s = .refused .illegalConfiguration

/-- A refusal of `step` names an illegal configuration, and exactly the configurations outside the ranges of R6, R7 and R8 (D3, D4,
D2) are refused. R255 and I11 ask for the refusal of a bad `SCALE` only; refusing `CNT_W` 0 and a map that is not one-to-one, and
doing so in `step`, is the model's choice (notes/assumptions/13.md, DESIGN CHOICE). -/
def Obligations.RefusesOnlyIllegalConfigurations : Prop :=
  ∀ (s : State) (r : Refusal), step s = .refused r ↔
    r = .illegalConfiguration ∧
      ¬(1 ≤ s.cfg.scale ∧ s.cfg.scale ≤ 25 ∧ 1 ≤ s.cfg.cntW ∧
        [s.cfg.cmdMap.a, s.cfg.cmdMap.d, s.cfg.cmdMap.e, s.cfg.cmdMap.l].Nodup)

/-- The outcome of an RX write and of a COMMIT under every order of the two (R115, R59): a command whose COMMIT does not write
LC commutes with the write; one whose COMMIT clears LC loses a byte written before it. -/
def Obligations.RxCommutesWithCommit : Prop :=
  ∀ (i : Instr) (s : State) (b : Byte), ∃ t,
    exec i s = .next t ∧
    (commitClearsLc s.cfg i = false → t.lc = s.lc ∧ exec i { s with lc := b } = .next { t with lc := b }) ∧
    (commitClearsLc s.cfg i = true → t.lc = 0x00#8 ∧ exec i { s with lc := b } = .next t)

/-- Any enabled step of any agent may be taken next (R20, D1): for every enabled action other than reset there is a move that
makes `step` take it, and every step is an enabled action. The schedule is the model's (notes/assumptions/3.md). -/
def Obligations.EnabledActionsAreSteps : Prop :=
  ∀ (s : State) (rest : List Move), s.cfg.wf = true →
    (∀ a : Action, a ≠ .reset → actionEnabled a s = true →
      ∃ (m : Move) (t : State), act a s = .next t ∧
        step { s with sched := m :: rest } = .next { t with sched := rest }) ∧
    ∀ (m : Move) (t : State), step { s with sched := m :: rest } = .next t →
      ∃ (a : Action) (u : State), a ≠ .reset ∧ actionEnabled a s = true ∧ act a s = .next u ∧
        t = { u with sched := rest }

/-- An iteration of a script (R77, R100, D10, D20) is what the machine does in two steps, or in three after a movement command,
while RX is silent. -/
def Obligations.IterationIsItsSteps : Prop :=
  ∀ s : State, s.cfg.wf = true → s.ph = .sample → s.sched = [] →
    ∃ t, scriptIter s = some t ∧ t.ph = .sample ∧
      Host.Core.run Sys2Proof.core (if isMovement (decode s.cfg.cmdMap s.lc) then 3 else 2) s = .next t

/-! ### Reset and invariants -/

/-- The reset state of R240 with the boot event of R241 and no `SET_RELOAD` (R242), under every configuration. LC, TR, PH and
the boot order are the spec's own decisions D6, D7, D10, D15; SC is left out, since its value is the model's
(notes/assumptions/6.md). -/
def Obligations.ResetState : Prop :=
  ∀ cfg : Config, cfg.wf = true →
    let s := State.resetWith cfg
    s.lc = 0x00#8 ∧ s.os.toNat = 1 ∧ s.dl.val = 1 ∧ s.tr.toNat + cfg.scale = 256 ∧ s.ci = 0 ∧ s.cd = 0 ∧ s.ph = .sample ∧
      s.trace = [.status .banner] ∧ (∀ i : Fin 8, s.led i = decide (i.val = 0)) ∧ s.reload.toNat = 256 - cfg.scale ∧
      s.cfg = cfg

/-- The invariants of R32 and the shape of the trace hold at reset, under every legal configuration. -/
def Obligations.ResetMeetsInvariant : Prop :=
  ∀ cfg : Config, cfg.wf = true →
    (State.resetWith cfg).Inv ∧ (State.resetWith cfg).traceOk = true ∧
      reloadOfEvents (reloadOf cfg 1) (State.resetWith cfg).trace = (State.resetWith cfg).tr

/-- Every step keeps the invariants of R32: the exact reload, the counters' widths, items 4 and 5, and that only a movement
command leaves the block in a pause. (Item 5 is an inference the spec marks as its own.) -/
def Obligations.StepKeepsInvariant : Prop :=
  ∀ s t : State, s.Inv → step s = .next t → t.Inv

/-- Every step keeps the shape of the trace: the boot event, then for each edge its reload and its percentage, which belong to
one duty level, and for each movement its status and its pause request. The order within a step is the spec's decision D11. -/
def Obligations.StepKeepsTraceShape : Prop :=
  ∀ s t : State, s.traceOk = true → step s = .next t → t.traceOk = true

/-- Every step keeps the `reload` level equal to the last `SET_RELOAD`, or to the reset value while there is none (R37, R242,
D7, D15). -/
def Obligations.StepKeepsReloadEvents : Prop :=
  ∀ s t : State, reloadOfEvents (reloadOf s.cfg 1) s.trace = s.tr → step s = .next t →
    reloadOfEvents (reloadOf t.cfg 1) t.trace = t.tr

/-- The trace only grows (R36, D11): a step appends at most two events, and none unless it is a COMMIT, that is unless PH is at
COMMIT and the move is the block's own; an RX step appends none in any phase. -/
def Obligations.TraceOnlyGrows : Prop :=
  ∀ s t : State, step s = .next t →
    ∃ es : List Event, t.trace = s.trace ++ es ∧ es.length ≤ 2 ∧
      (¬(s.ph = .commit ∧ nextMove s.sched = .own) → es = [])

/-- No step changes the configuration, or the decode table it fixes (R33). -/
def Obligations.ConfigurationNeverChanges : Prop :=
  ∀ s t : State, step s = .next t → t.cfg = s.cfg ∧ decode t.cfg.cmdMap = decode s.cfg.cmdMap

/-- OS is an 8-bit register, 0x01 at reset, that only the COMMIT of a movement command changes (R23). -/
def Obligations.OutputChangesOnlyByMovement : Prop :=
  (∀ cfg : Config, (State.resetWith cfg).os = 0x01#8) ∧
  ∀ s t : State, step s = .next t → t.os ≠ s.os →
    s.ph = .commit ∧ nextMove s.sched = .own ∧
      decode s.cfg.cmdMap s.sc ∈ [Instr.forward, .backward, .toggleLow, .toggleHigh]

/-- DL changes only in the COMMIT of an intensity command whose own counter is 0, and TR only together with DL (R140, in the
states that R32 allows; the exact reload is derived in R25). -/
def Obligations.DutyChangesOnlyOnEdges : Prop :=
  ∀ s t : State, s.Inv → step s = .next t →
    (t.dl ≠ s.dl → s.ph = .commit ∧ nextMove s.sched = .own ∧
      (decode s.cfg.cmdMap s.sc = .intensityUp ∧ s.ci = 0 ∨ decode s.cfg.cmdMap s.sc = .intensityDown ∧ s.cd = 0)) ∧
    (t.tr ≠ s.tr → t.dl ≠ s.dl)

/-! ### What each command does -/

/-- FORWARD (R120): its byte, its result, its completion in every state, and its frame. The two events are given without their
order, which is the spec's decision D11 (`CommitEventOrder`). -/
def Obligations.ForwardResult : Prop :=
  (∀ m : CmdMap, decode m 0x46#8 = .forward) ∧
  ∀ s : State, ∃ (t : State) (es : List Event),
    exec .forward s = .next t ∧
    t.os.toNat = (if 128 ≤ s.os.toNat then 1 else 2 * s.os.toNat) ∧
    t.ci = 0 ∧ t.cd = 0 ∧ t.lc = (if s.cfg.moveClears then 0x00#8 else s.lc) ∧
    t.trace = s.trace ++ es ∧ es.Perm [.status .frente, .delayReq] ∧ t.ph = .delay ∧
    t.dl = s.dl ∧ t.tr = s.tr ∧ t.sc = s.sc ∧ t.cfg = s.cfg ∧ t.sched = s.sched

/-- BACKWARD (R122) in both modes of `BWD_MODE` (D9), with its byte under `CMD_MAP` (D2), its completion and its frame; the two
modes differ at OS 0x01 only. -/
def Obligations.BackwardResult : Prop :=
  (∀ m : CmdMap, m.a = .backward → decode m 0x41#8 = .backward) ∧
  ∀ s : State, ∃ (t : State) (es : List Event),
    exec .backward s = .next t ∧
    t.os.toNat =
      (if s.os.toNat = 0 ∨ (s.os.toNat = 1 ∧ s.cfg.bwdMode = .postcheck) then 128 else s.os.toNat / 2) ∧
    t.ci = 0 ∧ t.cd = 0 ∧ t.lc = (if s.cfg.moveClears then 0x00#8 else s.lc) ∧
    t.trace = s.trace ++ es ∧ es.Perm [.status .atras, .delayReq] ∧ t.ph = .delay ∧
    t.dl = s.dl ∧ t.tr = s.tr ∧ t.sc = s.sc ∧ t.cfg = s.cfg ∧ t.sched = s.sched

/-- TOGGLE_LOW (R124) with its byte under `CMD_MAP` (D2), its completion and its frame: the low nibble becomes 15 less what it
was (R125). -/
def Obligations.ToggleLowResult : Prop :=
  (∀ m : CmdMap, m.d = .toggleLow → decode m 0x44#8 = .toggleLow) ∧
  ∀ s : State, ∃ (t : State) (es : List Event),
    exec .toggleLow s = .next t ∧
    t.os.toNat / 16 = s.os.toNat / 16 ∧ t.os.toNat % 16 = 15 - s.os.toNat % 16 ∧
    t.ci = 0 ∧ t.cd = 0 ∧ t.lc = (if s.cfg.moveClears then 0x00#8 else s.lc) ∧
    t.trace = s.trace ++ es ∧ es.Perm [.status .piscaMenos, .delayReq] ∧ t.ph = .delay ∧
    t.dl = s.dl ∧ t.tr = s.tr ∧ t.sc = s.sc ∧ t.cfg = s.cfg ∧ t.sched = s.sched

/-- TOGGLE_HIGH (R126) with its byte under `CMD_MAP` (D2), its completion and its frame: the high nibble becomes 15 less what it
was (R127). -/
def Obligations.ToggleHighResult : Prop :=
  (∀ m : CmdMap, m.e = .toggleHigh → decode m 0x45#8 = .toggleHigh) ∧
  ∀ s : State, ∃ (t : State) (es : List Event),
    exec .toggleHigh s = .next t ∧
    t.os.toNat / 16 = 15 - s.os.toNat / 16 ∧ t.os.toNat % 16 = s.os.toNat % 16 ∧
    t.ci = 0 ∧ t.cd = 0 ∧ t.lc = (if s.cfg.moveClears then 0x00#8 else s.lc) ∧
    t.trace = s.trace ++ es ∧ es.Perm [.status .piscaMais, .delayReq] ∧ t.ph = .delay ∧
    t.dl = s.dl ∧ t.tr = s.tr ∧ t.sc = s.sc ∧ t.cfg = s.cfg ∧ t.sched = s.sched

/-- INTENSITY_UP (R141) with its byte, its completion and its frame: on an edge the duty level, the exact reload, both events in
the order of D11 (at level 10 too, D13) and the counters; off an edge only the counters (R145, D4) and the phase. -/
def Obligations.IntensityUpResult : Prop :=
  (∀ m : CmdMap, decode m 0x50#8 = .intensityUp) ∧
  (∀ s : State, s.cfg.wf = true → s.ci = 0 → ∃ t : State,
    exec .intensityUp s = .next t ∧
    t.dl.val = min (s.dl.val + 1) 10 ∧ t.tr.toNat + t.dl.val * s.cfg.scale = 256 ∧ t.ci = 1 ∧ t.cd = 0 ∧
    t.trace = s.trace ++ [.setReload t.tr, .status (.duty (t.dl.val * 10))] ∧ t.ph = .sample ∧
    t.os = s.os ∧ t.lc = s.lc ∧ t.sc = s.sc ∧ t.cfg = s.cfg ∧ t.sched = s.sched) ∧
  ∀ s : State, s.ci ≠ 0 →
    exec .intensityUp s =
      .next { s with
        ci := if s.ci < 2 ^ s.cfg.cntW - 1 then s.ci + 1 else if s.cfg.cntOvf = .saturate then s.ci else 0
        cd := 0
        ph := .sample }

/-- INTENSITY_DOWN (R143) with its byte under `CMD_MAP` (D2), its completion and its frame, as for INTENSITY_UP (D11, D4): the
new level is the greater of `DL - 1`, taken as an integer, and 0. -/
def Obligations.IntensityDownResult : Prop :=
  (∀ m : CmdMap, m.l = .intensityDown → decode m 0x4C#8 = .intensityDown) ∧
  (∀ s : State, s.cfg.wf = true → s.cd = 0 → ∃ t : State,
    exec .intensityDown s = .next t ∧
    (t.dl.val : Int) = max ((s.dl.val : Int) - 1) 0 ∧ t.tr.toNat + t.dl.val * s.cfg.scale = 256 ∧ t.cd = 1 ∧ t.ci = 0 ∧
    t.trace = s.trace ++ [.setReload t.tr, .status (.duty (t.dl.val * 10))] ∧ t.ph = .sample ∧
    t.os = s.os ∧ t.lc = s.lc ∧ t.sc = s.sc ∧ t.cfg = s.cfg ∧ t.sched = s.sched) ∧
  ∀ s : State, s.cd ≠ 0 →
    exec .intensityDown s =
      .next { s with
        ci := 0
        cd := if s.cd < 2 ^ s.cfg.cntW - 1 then s.cd + 1 else if s.cfg.cntOvf = .saturate then s.cd else 0
        ph := .sample }

/-- DEFAULT (R170): every byte that R72 does not list selects it, the none value among them; in every state it clears LC
unconditionally and both counters, emits nothing and leaves the rest alone. -/
def Obligations.DefaultResult : Prop :=
  (∀ (m : CmdMap) (b : Byte), b ∉ [0x46#8, 0x41#8, 0x44#8, 0x45#8, 0x50#8, 0x4C#8] → decode m b = .defaultCmd b) ∧
  ∀ (b : Byte) (s : State),
    exec (.defaultCmd b) s = .next { s with lc := 0x00#8, ci := 0, cd := 0, ph := .sample }

/-- The events of each command, in order. The order is the spec's decision D11; that an edge at a clamp limit still reports is
its decision D13. -/
def Obligations.CommitEventOrder : Prop :=
  ∀ (i : Instr) (s t : State), exec i s = .next t →
    t.trace = s.trace ++
      match i with
      | .forward => [.status .frente, .delayReq]
      | .backward => [.status .atras, .delayReq]
      | .toggleLow => [.status .piscaMenos, .delayReq]
      | .toggleHigh => [.status .piscaMais, .delayReq]
      | .intensityUp => if s.ci = 0 then [.setReload t.tr, .status (.duty (t.dl.val * 10))] else []
      | .intensityDown => if s.cd = 0 then [.setReload t.tr, .status (.duty (t.dl.val * 10))] else []
      | .defaultCmd _ => []

/-- R105: after the COMMIT of a command, the increase counter is 0 unless it was INTENSITY_UP, and the decrease counter is 0
unless it was INTENSITY_DOWN. -/
def Obligations.PostDispatchClearsCounters : Prop :=
  ∀ (i : Instr) (s t : State), exec i s = .next t →
    (i ≠ .intensityUp → t.ci = 0) ∧ (i ≠ .intensityDown → t.cd = 0)

/-- R107: a movement command asks for its pause and enters DELAY; any other command asks for none and returns to SAMPLE. -/
def Obligations.PhaseAfterCommit : Prop :=
  ∀ (i : Instr) (s t : State), exec i s = .next t →
    ∃ es : List Event, t.trace = s.trace ++ es ∧
      (i ∈ [Instr.forward, .backward, .toggleLow, .toggleHigh] → t.ph = .delay ∧ Event.delayReq ∈ es) ∧
      (i ∉ [Instr.forward, .backward, .toggleLow, .toggleHigh] → t.ph = .sample ∧ Event.delayReq ∉ es)

/-! ### Laws of the output pattern -/

/-- FORWARD turns one lit LED into the next one, and eight in a row come back (R121, an inference of the spec from R120). -/
def Obligations.ForwardRotatesOneHot : Prop :=
  ∀ (s : State) (i : Fin 8), s.os.toNat = 2 ^ i.val →
    (∃ t, exec .forward s = .next t ∧ t.os.toNat = 2 ^ ((i.val + 1) % 8)) ∧
    ∃ u, commitAll (List.replicate 8 .forward) s = .next u ∧ u.os = s.os

/-- BACKWARD (R123, an inference of the spec from R122): under POSTCHECK a rotation right of one lit LED; under PRECHECK the
order 0x80, 0x40, ..., 0x01, 0x00, 0x80, given step by step (each lit LED to the one below it, the lowest to all off), so that
nine in a row come back from any of those nine patterns; from all off to the highest LED in both modes (D9). -/
def Obligations.BackwardCycles : Prop :=
  (∀ (s : State) (i : Fin 8), s.cfg.bwdMode = .postcheck → s.os.toNat = 2 ^ i.val →
    ∃ t, exec .backward s = .next t ∧ t.os.toNat = 2 ^ ((i.val + 7) % 8)) ∧
  (∀ (s : State) (i : Fin 8), s.cfg.bwdMode = .precheck → 0 < i.val → s.os.toNat = 2 ^ i.val →
    ∃ t, exec .backward s = .next t ∧ t.os.toNat = 2 ^ (i.val - 1)) ∧
  (∀ s : State, s.cfg.bwdMode = .precheck → s.os.toNat = 1 → ∃ t, exec .backward s = .next t ∧ t.os.toNat = 0) ∧
  (∀ (s : State) (i : Fin 8), s.cfg.bwdMode = .precheck → s.os.toNat = 0 ∨ s.os.toNat = 2 ^ i.val →
    ∃ t, commitAll (List.replicate 9 .backward) s = .next t ∧ t.os = s.os) ∧
  ∀ s : State, s.os = 0x00#8 → ∃ t, exec .backward s = .next t ∧ t.os = 0x80#8

/-- The toggles (R125, R127): each flips exactly its own four bits, is its own inverse, and they commute; one of each inverts
every bit. -/
def Obligations.ToggleLaws : Prop :=
  (∀ s : State, ∃ t, exec .toggleLow s = .next t ∧
    ∀ k : Fin 8, t.os.getLsbD k.val = if k.val < 4 then !s.os.getLsbD k.val else s.os.getLsbD k.val) ∧
  (∀ s : State, ∃ t, exec .toggleHigh s = .next t ∧
    ∀ k : Fin 8, t.os.getLsbD k.val = if k.val < 4 then s.os.getLsbD k.val else !s.os.getLsbD k.val) ∧
  (∀ s : State, ∃ t, commitAll [.toggleLow, .toggleLow] s = .next t ∧ t.os = s.os) ∧
  (∀ s : State, ∃ t, commitAll [.toggleHigh, .toggleHigh] s = .next t ∧ t.os = s.os) ∧
  ∀ s : State, ∃ t u, commitAll [.toggleLow, .toggleHigh] s = .next t ∧ commitAll [.toggleHigh, .toggleLow] s = .next u ∧
    t.os = u.os ∧ t.os.toNat = 255 - s.os.toNat

/-! ### Laws of the duty level -/

/-- N INTENSITY_UP edges, each preceded by a command that is neither INTENSITY_UP nor INTENSITY_DOWN, give
`min(initial + N, 10)`, the exact reload and N duty lines, from any state (R142, the source's §8 item 1; at level 10 the lines
are D13). -/
def Obligations.UpEdgesClampAtTen : Prop :=
  ∀ (is : List Instr) (s : State), s.cfg.wf = true → is ≠ [] →
    (∀ i ∈ is, i ≠ .intensityUp ∧ i ≠ .intensityDown) →
    ∃ t, commitAll (eachThen .intensityUp is) s = .next t ∧ t.dl.val = min (s.dl.val + is.length) 10 ∧
      t.tr.toNat + t.dl.val * s.cfg.scale = 256 ∧ dutyLines t.trace = dutyLines s.trace + is.length

/-- N INTENSITY_DOWN edges, so preceded, give `max(initial - N, 0)`, the exact reload and N duty lines (R144, the source's §8
item 2). -/
def Obligations.DownEdgesClampAtZero : Prop :=
  ∀ (is : List Instr) (s : State), s.cfg.wf = true → is ≠ [] →
    (∀ i ∈ is, i ≠ .intensityUp ∧ i ≠ .intensityDown) →
    ∃ t, commitAll (eachThen .intensityDown is) s = .next t ∧
      (t.dl.val : Int) = max ((s.dl.val : Int) - is.length) 0 ∧
      t.tr.toNat + t.dl.val * s.cfg.scale = 256 ∧ dutyLines t.trace = dutyLines s.trace + is.length

/-- A held INTENSITY_UP under SATURATE (R149, D4): of any number of iterations only the first is an edge, and CI stays at its
maximum. -/
def Obligations.HeldUpUnderSaturate : Prop :=
  ∀ (s : State) (n : Nat), s.cfg.wf = true → s.cfg.cntOvf = .saturate → s.ph = .sample → s.sched = [] →
    decode s.cfg.cmdMap s.lc = .intensityUp → s.ci = 0 →
    ∃ t, Host.Core.run Sys2Proof.core (2 * (n + 1)) s = .next t ∧
      t.dl.val = min (s.dl.val + 1) 10 ∧ t.ci = min (n + 1) (2 ^ s.cfg.cntW - 1) ∧ t.cd = 0 ∧
      t.trace = s.trace ++ [.setReload t.tr, .status (.duty (t.dl.val * 10))] ∧
      t.ph = .sample ∧ t.lc = s.lc ∧ t.os = s.os

/-- A held INTENSITY_UP under WRAP (R149, R253, D4): iteration `1 + j * 2^CNT_W` is an edge and no other is. -/
def Obligations.HeldUpUnderWrap : Prop :=
  ∀ (s : State) (n : Nat), s.cfg.wf = true → s.cfg.cntOvf = .wrap → s.ph = .sample → s.sched = [] →
    decode s.cfg.cmdMap s.lc = .intensityUp → s.ci = 0 →
    ∃ t, Host.Core.run Sys2Proof.core (2 * (n + 1)) s = .next t ∧
      t.dl.val = min (s.dl.val + (n / 2 ^ s.cfg.cntW + 1)) 10 ∧ t.ci = (n + 1) % 2 ^ s.cfg.cntW ∧ t.cd = 0 ∧
      dutyLines t.trace = dutyLines s.trace + (n / 2 ^ s.cfg.cntW + 1) ∧
      t.ph = .sample ∧ t.lc = s.lc ∧ t.os = s.os

/-- A held INTENSITY_DOWN (R149, R253, D4): under SATURATE the first iteration alone is an edge; under WRAP iteration
`1 + j * 2^CNT_W` is one and no other is. -/
def Obligations.HeldDownFires : Prop :=
  ∀ (s : State) (n : Nat), s.cfg.wf = true → s.ph = .sample → s.sched = [] →
    decode s.cfg.cmdMap s.lc = .intensityDown → s.cd = 0 →
    ∃ t, Host.Core.run Sys2Proof.core (2 * (n + 1)) s = .next t ∧ t.ci = 0 ∧ t.ph = .sample ∧ t.lc = s.lc ∧ t.os = s.os ∧
      (s.cfg.cntOvf = .saturate →
        t.dl.val = s.dl.val - 1 ∧ t.cd = min (n + 1) (2 ^ s.cfg.cntW - 1) ∧
        dutyLines t.trace = dutyLines s.trace + 1) ∧
      (s.cfg.cntOvf = .wrap →
        t.dl.val = s.dl.val - (n / 2 ^ s.cfg.cntW + 1) ∧ t.cd = (n + 1) % 2 ^ s.cfg.cntW ∧
        dutyLines t.trace = dutyLines s.trace + (n / 2 ^ s.cfg.cntW + 1))

/-- The counter increment (R145, D4) on a counter of `CNT_W` bits: under WRAP addition modulo `2^CNT_W`, under SATURATE bounded
by `2^CNT_W - 1`. -/
def Obligations.CounterIncrement : Prop :=
  ∀ (cfg : Config) (v : Nat), v < 2 ^ cfg.cntW →
    incCnt cfg v < 2 ^ cfg.cntW ∧
    (cfg.cntOvf = .wrap → incCnt cfg v = (v + 1) % 2 ^ cfg.cntW) ∧
    (cfg.cntOvf = .saturate → incCnt cfg v = min (v + 1) (2 ^ cfg.cntW - 1))

/-- The converter (R146, R147, R25, D7): exact in 9 bits for every legal `SCALE`, in `[256 - 10*SCALE, 256]`, one `SCALE` lower
for each step of the duty level. -/
def Obligations.ConverterExact : Prop :=
  ∀ (cfg : Config) (d : Duty), cfg.wf = true →
    ((reloadOf cfg d).toNat : Int) = 256 - d.val * cfg.scale ∧
    256 - 10 * cfg.scale ≤ (reloadOf cfg d).toNat ∧ (reloadOf cfg d).toNat ≤ 256 ∧
    (d.val < 10 → (reloadOf cfg (dutyUp d)).toNat + cfg.scale = (reloadOf cfg d).toNat)

/-- A duty line is emitted once per edge and never otherwise (R148; an edge at a limit counts, D13). -/
def Obligations.DutyLinesOnEdgesOnly : Prop :=
  ∀ (i : Instr) (s t : State), exec i s = .next t →
    dutyLines t.trace =
      dutyLines s.trace + if i = .intensityUp ∧ s.ci = 0 ∨ i = .intensityDown ∧ s.cd = 0 then 1 else 0

/-- Any other command re-arms an intensity command (R150, an inference of the spec from R105): the next one is an edge. -/
def Obligations.OtherCommandRearms : Prop :=
  (∀ (i : Instr) (s : State), i ≠ .intensityUp → ∃ t u, exec i s = .next t ∧ exec .intensityUp t = .next u ∧
    u.dl.val = min (t.dl.val + 1) 10 ∧ dutyLines u.trace = dutyLines t.trace + 1) ∧
  ∀ (i : Instr) (s : State), i ≠ .intensityDown → ∃ t u, exec i s = .next t ∧ exec .intensityDown t = .next u ∧
    u.dl.val = t.dl.val - 1 ∧ dutyLines u.trace = dutyLines t.trace + 1

/-- A repeated INTENSITY_UP byte does not re-arm (R151, R252, inferences of the spec from R141 and R150): two of them with
nothing sampled between raise the duty level once. -/
def Obligations.RepeatedByteDoesNotRearm : Prop :=
  ∀ (s : State) (rest : List Move), s.cfg.wf = true → s.ph = .sample →
    s.sched = [.own, .own, .rx s.lc, .own, .own] ++ rest → decode s.cfg.cmdMap s.lc = .intensityUp → s.ci = 0 →
    ∃ t, Host.Core.run Sys2Proof.core 5 s = .next t ∧ t.dl.val = min (s.dl.val + 1) 10 ∧
      dutyLines t.trace = dutyLines s.trace + 1 ∧ t.lc = s.lc ∧ t.ph = .sample ∧ t.sched = rest

/-! ### Iterations and ordering -/

/-- While PH is DELAY, CTRL takes no step, RX stays enabled and changes LC alone, and nothing but the DLY step ends the pause
(R110). -/
def Obligations.PauseHoldsController : Prop :=
  (∀ (s : State) (b : Byte) (rest : List Move), s.cfg.wf = true → s.ph = .delay →
    step { s with sched := .rx b :: rest } = .next { s with lc := b, sched := rest }) ∧
  ∀ s t : State, s.ph = .delay → step s = .next t →
    (∃ b, nextMove s.sched = .rx b ∧ t = { s with lc := b, sched := s.sched.tail }) ∨
    nextMove s.sched = .own ∧ t = { s with ph := .sample, sched := s.sched.tail }

/-- The lost byte (R59, R250, inferences of the spec from R53, R55 and R57): a byte written between a SAMPLE and a COMMIT that
clears LC leaves the machine as if it had never arrived. -/
def Obligations.LostByteAfterDefaultSample : Prop :=
  ∀ (s : State) (b : Byte) (rest : List Move), s.cfg.wf = true → s.ph = .sample →
    s.sched = .own :: .rx b :: .own :: rest → commitClearsLc s.cfg (decode s.cfg.cmdMap s.lc) = true →
    ∃ t, Host.Core.run Sys2Proof.core 3 s = .next t ∧ t.lc = 0x00#8 ∧
      Host.Core.run Sys2Proof.core 2 { s with sched := .own :: .own :: rest } = .next t

/-- Of the bytes written before a SAMPLE, during a pause too, only the last is sampled (R60, R251, inferences of the spec from
R53 and R101). -/
def Obligations.LastByteWins : Prop :=
  ∀ (s : State) (bs : List Byte) (b : Byte) (rest : List Move), s.cfg.wf = true →
    (s.ph = .sample → s.sched = bs.map .rx ++ .rx b :: .own :: rest →
      Host.Core.run Sys2Proof.core (bs.length + 2) s =
        .next { s with lc := b, sc := b, ph := .commit, sched := rest }) ∧
    (s.ph = .delay → s.sched = bs.map .rx ++ .rx b :: .own :: .own :: rest →
      Host.Core.run Sys2Proof.core (bs.length + 3) s =
        .next { s with lc := b, sc := b, ph := .commit, sched := rest })

/-- SC is never read before SAMPLE writes it (R28, D26): outside COMMIT, a machine with another SC takes the same step, and after
a SAMPLE nothing of the difference is left. So the model's reset value of SC (notes/assumptions/6.md) shows nowhere. -/
def Obligations.SampledCommandNotReadBeforeWritten : Prop :=
  ∀ (s t : State) (v : Byte), s.ph ≠ .commit → step s = .next t →
    step { s with sc := v } = .next (if t.ph = .commit then t else { t with sc := v })

/-- Independence (R152, an inference of the spec from R120 to R128, R141 and R143): OS depends on the movement commands alone; DL,
TR and the counters are the same when every movement command is replaced by a DEFAULT. -/
def Obligations.CommandFamiliesIndependent : Prop :=
  ∀ (is : List Instr) (s : State), ∃ t u v,
    commitAll is s = .next t ∧
    commitAll (is.filter isMovement) s = .next u ∧ u.os = t.os ∧
    commitAll (is.map fun i => if isMovement i then .defaultCmd 0x00#8 else i) s = .next v ∧
      v.dl = t.dl ∧ v.tr = t.tr ∧ v.ci = t.ci ∧ v.cd = t.cd

/-- The idle loop (R111, an inference of the spec from R101, R102 and R170; SC takes LC, notes/assumptions/18.md): an iteration on
a byte that selects DEFAULT clears LC and the counters and emits nothing; from none and zero counters it changes nothing. -/
def Obligations.IdleIteration : Prop :=
  ∀ s : State, s.cfg.wf = true → s.ph = .sample → s.sched = [] → decode s.cfg.cmdMap s.lc = .defaultCmd s.lc →
    Host.Core.run Sys2Proof.core 2 s = .next { s with lc := 0x00#8, ci := 0, cd := 0, sc := s.lc } ∧
    (s.lc = 0x00#8 → s.sc = 0x00#8 → s.ci = 0 → s.cd = 0 → ∀ n, Host.Core.run Sys2Proof.core (2 * n) s = .next s)

/-- Fairness (R112, D23; the finite schedule is notes/assumptions/4.md): from every legal state, whatever bytes are still to
come, the enabled step of CTRL or DLY is taken within one step more than the schedule is long, and the phase moves on as R101,
R107 and R109 say. In particular every pause ends. -/
def Obligations.EveryPhaseEnds : Prop :=
  ∀ s : State, s.cfg.wf = true →
    ∃ k t, k ≤ s.sched.length ∧ Host.Core.run Sys2Proof.core (k + 1) s = .next t ∧
      t.ph =
        match s.ph with
        | .sample => .commit
        | .commit => if isMovement (decode s.cfg.cmdMap s.sc) then .delay else .sample
        | .delay => .sample

/-- Repetition (R114, R256, inferences of the spec from R54, R101 and R102): a byte whose COMMIT does not clear LC stays, so the
next iteration runs the same command again, from the state the first one left. -/
def Obligations.HeldCommandRepeats : Prop :=
  ∀ s : State, s.cfg.wf = true → s.ph = .sample → s.sched = [] →
    commitClearsLc s.cfg (decode s.cfg.cmdMap s.lc) = false →
    ∃ c d : State,
      exec (decode s.cfg.cmdMap s.lc) { s with sc := s.lc, ph := .commit } = .next c ∧
      scriptIter s = some { c with ph := .sample } ∧ c.lc = s.lc ∧
      exec (decode s.cfg.cmdMap s.lc) { c with ph := .commit } = .next d ∧
      scriptIter { c with ph := .sample } = some { d with ph := .sample } ∧ d.lc = s.lc

/-! ### Outputs -/

/-- The ports: LED i shows bit i of OS (R35, the spec's decision D22), `reload` is TR, `reload[7:0]` is TR modulo 256, and in the
states that R32 allows TR is 256 exactly at duty level 0, where `reload[7:0]` is 0 (R37, R254, D7). -/
def Obligations.PortsShowRegisters : Prop :=
  (∀ (s : State) (i : Fin 8), s.led i = decide (s.os.toNat / 2 ^ i.val % 2 = 1)) ∧
  (∀ s : State, s.reload = s.tr ∧ s.reload8.toNat = s.tr.toNat % 256) ∧
  ∀ s : State, s.Inv → (s.reload.toNat = 256 ↔ s.dl = 0) ∧ (s.reload8 = 0x00#8 ↔ s.dl = 0)

/-- What each COMMIT sends (R36, R38; ASCII, LF and CR are G1 and G2, the percentage text at 0 and 100 is D12): the line of a
movement command, the duty line on an edge, and nothing else. Asking for a reload or a pause sends no byte; at boot the banner
alone has been sent (R241, D15). -/
def Obligations.CommitSendsStatusLine : Prop :=
  let line := fun text : String => text.toList.map (fun c => BitVec.ofNat 8 c.toNat) ++ [0x0A#8, 0x0D#8]
  (∀ s : State, ∃ t, exec .forward s = .next t ∧
    t.serialOut = s.serialOut ++ [0x46#8, 0x52#8, 0x45#8, 0x4E#8, 0x54#8, 0x45#8, 0x0A#8, 0x0D#8]) ∧
  (∀ s : State, ∃ t, exec .backward s = .next t ∧
    t.serialOut = s.serialOut ++ [0x41#8, 0x54#8, 0x52#8, 0x41#8, 0x53#8, 0x0A#8, 0x0D#8]) ∧
  (∀ s : State, ∃ t, exec .toggleLow s = .next t ∧
    t.serialOut = s.serialOut ++ line "PISCANDO MENOS SIGNIFICATIVO") ∧
  (∀ s : State, ∃ t, exec .toggleHigh s = .next t ∧
    t.serialOut = s.serialOut ++ line "PISCANDO MAIS SIGNIFICATIVO") ∧
  (∀ s : State, ∃ t, exec .intensityUp s = .next t ∧
    t.serialOut = s.serialOut ++
      if s.ci = 0 then line ("Duty Cycle: " ++ toString (t.dl.val * 10) ++ "%") else []) ∧
  (∀ s : State, ∃ t, exec .intensityDown s = .next t ∧
    t.serialOut = s.serialOut ++
      if s.cd = 0 then line ("Duty Cycle: " ++ toString (t.dl.val * 10) ++ "%") else []) ∧
  (∀ (b : Byte) (s : State), ∃ t, exec (.defaultCmd b) s = .next t ∧ t.serialOut = s.serialOut) ∧
  ∀ cfg : Config, (State.resetWith cfg).serialOut = line "Pressionar as teclas F, A, D, E, P ou L"
end

