-- ==== Sys2Proof/Laws/State.lean ====
section
/-! SUPPORT. One lemma per field per update of the state. -/

namespace Sys2Proof.Machine

@[simp] theorem State.setLc_lc (s : State) (v : Byte) : (s.setLc v).lc = v := rfl
@[simp] theorem State.setLc_os (s : State) (v : Byte) : (s.setLc v).os = s.os := rfl
@[simp] theorem State.setLc_dl (s : State) (v : Byte) : (s.setLc v).dl = s.dl := rfl
@[simp] theorem State.setLc_tr (s : State) (v : Byte) : (s.setLc v).tr = s.tr := rfl
@[simp] theorem State.setLc_ci (s : State) (v : Byte) : (s.setLc v).ci = s.ci := rfl
@[simp] theorem State.setLc_cd (s : State) (v : Byte) : (s.setLc v).cd = s.cd := rfl
@[simp] theorem State.setLc_sc (s : State) (v : Byte) : (s.setLc v).sc = s.sc := rfl
@[simp] theorem State.setLc_ph (s : State) (v : Byte) : (s.setLc v).ph = s.ph := rfl
@[simp] theorem State.setLc_trace (s : State) (v : Byte) : (s.setLc v).trace = s.trace := rfl
@[simp] theorem State.setLc_cfg (s : State) (v : Byte) : (s.setLc v).cfg = s.cfg := rfl
@[simp] theorem State.setLc_sched (s : State) (v : Byte) : (s.setLc v).sched = s.sched := rfl

@[simp] theorem State.setOs_lc (s : State) (v : Byte) : (s.setOs v).lc = s.lc := rfl
@[simp] theorem State.setOs_os (s : State) (v : Byte) : (s.setOs v).os = v := rfl
@[simp] theorem State.setOs_dl (s : State) (v : Byte) : (s.setOs v).dl = s.dl := rfl
@[simp] theorem State.setOs_tr (s : State) (v : Byte) : (s.setOs v).tr = s.tr := rfl
@[simp] theorem State.setOs_ci (s : State) (v : Byte) : (s.setOs v).ci = s.ci := rfl
@[simp] theorem State.setOs_cd (s : State) (v : Byte) : (s.setOs v).cd = s.cd := rfl
@[simp] theorem State.setOs_sc (s : State) (v : Byte) : (s.setOs v).sc = s.sc := rfl
@[simp] theorem State.setOs_ph (s : State) (v : Byte) : (s.setOs v).ph = s.ph := rfl
@[simp] theorem State.setOs_trace (s : State) (v : Byte) : (s.setOs v).trace = s.trace := rfl
@[simp] theorem State.setOs_cfg (s : State) (v : Byte) : (s.setOs v).cfg = s.cfg := rfl
@[simp] theorem State.setOs_sched (s : State) (v : Byte) : (s.setOs v).sched = s.sched := rfl

@[simp] theorem State.setDl_lc (s : State) (v : Duty) : (s.setDl v).lc = s.lc := rfl
@[simp] theorem State.setDl_os (s : State) (v : Duty) : (s.setDl v).os = s.os := rfl
@[simp] theorem State.setDl_dl (s : State) (v : Duty) : (s.setDl v).dl = v := rfl
@[simp] theorem State.setDl_tr (s : State) (v : Duty) : (s.setDl v).tr = s.tr := rfl
@[simp] theorem State.setDl_ci (s : State) (v : Duty) : (s.setDl v).ci = s.ci := rfl
@[simp] theorem State.setDl_cd (s : State) (v : Duty) : (s.setDl v).cd = s.cd := rfl
@[simp] theorem State.setDl_sc (s : State) (v : Duty) : (s.setDl v).sc = s.sc := rfl
@[simp] theorem State.setDl_ph (s : State) (v : Duty) : (s.setDl v).ph = s.ph := rfl
@[simp] theorem State.setDl_trace (s : State) (v : Duty) : (s.setDl v).trace = s.trace := rfl
@[simp] theorem State.setDl_cfg (s : State) (v : Duty) : (s.setDl v).cfg = s.cfg := rfl
@[simp] theorem State.setDl_sched (s : State) (v : Duty) : (s.setDl v).sched = s.sched := rfl

@[simp] theorem State.setTr_lc (s : State) (v : Reload) : (s.setTr v).lc = s.lc := rfl
@[simp] theorem State.setTr_os (s : State) (v : Reload) : (s.setTr v).os = s.os := rfl
@[simp] theorem State.setTr_dl (s : State) (v : Reload) : (s.setTr v).dl = s.dl := rfl
@[simp] theorem State.setTr_tr (s : State) (v : Reload) : (s.setTr v).tr = v := rfl
@[simp] theorem State.setTr_ci (s : State) (v : Reload) : (s.setTr v).ci = s.ci := rfl
@[simp] theorem State.setTr_cd (s : State) (v : Reload) : (s.setTr v).cd = s.cd := rfl
@[simp] theorem State.setTr_sc (s : State) (v : Reload) : (s.setTr v).sc = s.sc := rfl
@[simp] theorem State.setTr_ph (s : State) (v : Reload) : (s.setTr v).ph = s.ph := rfl
@[simp] theorem State.setTr_trace (s : State) (v : Reload) : (s.setTr v).trace = s.trace := rfl
@[simp] theorem State.setTr_cfg (s : State) (v : Reload) : (s.setTr v).cfg = s.cfg := rfl
@[simp] theorem State.setTr_sched (s : State) (v : Reload) : (s.setTr v).sched = s.sched := rfl

@[simp] theorem State.setCi_lc (s : State) (v : Nat) : (s.setCi v).lc = s.lc := rfl
@[simp] theorem State.setCi_os (s : State) (v : Nat) : (s.setCi v).os = s.os := rfl
@[simp] theorem State.setCi_dl (s : State) (v : Nat) : (s.setCi v).dl = s.dl := rfl
@[simp] theorem State.setCi_tr (s : State) (v : Nat) : (s.setCi v).tr = s.tr := rfl
@[simp] theorem State.setCi_ci (s : State) (v : Nat) : (s.setCi v).ci = v := rfl
@[simp] theorem State.setCi_cd (s : State) (v : Nat) : (s.setCi v).cd = s.cd := rfl
@[simp] theorem State.setCi_sc (s : State) (v : Nat) : (s.setCi v).sc = s.sc := rfl
@[simp] theorem State.setCi_ph (s : State) (v : Nat) : (s.setCi v).ph = s.ph := rfl
@[simp] theorem State.setCi_trace (s : State) (v : Nat) : (s.setCi v).trace = s.trace := rfl
@[simp] theorem State.setCi_cfg (s : State) (v : Nat) : (s.setCi v).cfg = s.cfg := rfl
@[simp] theorem State.setCi_sched (s : State) (v : Nat) : (s.setCi v).sched = s.sched := rfl

@[simp] theorem State.setCd_lc (s : State) (v : Nat) : (s.setCd v).lc = s.lc := rfl
@[simp] theorem State.setCd_os (s : State) (v : Nat) : (s.setCd v).os = s.os := rfl
@[simp] theorem State.setCd_dl (s : State) (v : Nat) : (s.setCd v).dl = s.dl := rfl
@[simp] theorem State.setCd_tr (s : State) (v : Nat) : (s.setCd v).tr = s.tr := rfl
@[simp] theorem State.setCd_ci (s : State) (v : Nat) : (s.setCd v).ci = s.ci := rfl
@[simp] theorem State.setCd_cd (s : State) (v : Nat) : (s.setCd v).cd = v := rfl
@[simp] theorem State.setCd_sc (s : State) (v : Nat) : (s.setCd v).sc = s.sc := rfl
@[simp] theorem State.setCd_ph (s : State) (v : Nat) : (s.setCd v).ph = s.ph := rfl
@[simp] theorem State.setCd_trace (s : State) (v : Nat) : (s.setCd v).trace = s.trace := rfl
@[simp] theorem State.setCd_cfg (s : State) (v : Nat) : (s.setCd v).cfg = s.cfg := rfl
@[simp] theorem State.setCd_sched (s : State) (v : Nat) : (s.setCd v).sched = s.sched := rfl

@[simp] theorem State.setSc_lc (s : State) (v : Byte) : (s.setSc v).lc = s.lc := rfl
@[simp] theorem State.setSc_os (s : State) (v : Byte) : (s.setSc v).os = s.os := rfl
@[simp] theorem State.setSc_dl (s : State) (v : Byte) : (s.setSc v).dl = s.dl := rfl
@[simp] theorem State.setSc_tr (s : State) (v : Byte) : (s.setSc v).tr = s.tr := rfl
@[simp] theorem State.setSc_ci (s : State) (v : Byte) : (s.setSc v).ci = s.ci := rfl
@[simp] theorem State.setSc_cd (s : State) (v : Byte) : (s.setSc v).cd = s.cd := rfl
@[simp] theorem State.setSc_sc (s : State) (v : Byte) : (s.setSc v).sc = v := rfl
@[simp] theorem State.setSc_ph (s : State) (v : Byte) : (s.setSc v).ph = s.ph := rfl
@[simp] theorem State.setSc_trace (s : State) (v : Byte) : (s.setSc v).trace = s.trace := rfl
@[simp] theorem State.setSc_cfg (s : State) (v : Byte) : (s.setSc v).cfg = s.cfg := rfl
@[simp] theorem State.setSc_sched (s : State) (v : Byte) : (s.setSc v).sched = s.sched := rfl

@[simp] theorem State.setPh_lc (s : State) (v : Phase) : (s.setPh v).lc = s.lc := rfl
@[simp] theorem State.setPh_os (s : State) (v : Phase) : (s.setPh v).os = s.os := rfl
@[simp] theorem State.setPh_dl (s : State) (v : Phase) : (s.setPh v).dl = s.dl := rfl
@[simp] theorem State.setPh_tr (s : State) (v : Phase) : (s.setPh v).tr = s.tr := rfl
@[simp] theorem State.setPh_ci (s : State) (v : Phase) : (s.setPh v).ci = s.ci := rfl
@[simp] theorem State.setPh_cd (s : State) (v : Phase) : (s.setPh v).cd = s.cd := rfl
@[simp] theorem State.setPh_sc (s : State) (v : Phase) : (s.setPh v).sc = s.sc := rfl
@[simp] theorem State.setPh_ph (s : State) (v : Phase) : (s.setPh v).ph = v := rfl
@[simp] theorem State.setPh_trace (s : State) (v : Phase) : (s.setPh v).trace = s.trace := rfl
@[simp] theorem State.setPh_cfg (s : State) (v : Phase) : (s.setPh v).cfg = s.cfg := rfl
@[simp] theorem State.setPh_sched (s : State) (v : Phase) : (s.setPh v).sched = s.sched := rfl

@[simp] theorem State.emit_lc (s : State) (v : Event) : (s.emit v).lc = s.lc := rfl
@[simp] theorem State.emit_os (s : State) (v : Event) : (s.emit v).os = s.os := rfl
@[simp] theorem State.emit_dl (s : State) (v : Event) : (s.emit v).dl = s.dl := rfl
@[simp] theorem State.emit_tr (s : State) (v : Event) : (s.emit v).tr = s.tr := rfl
@[simp] theorem State.emit_ci (s : State) (v : Event) : (s.emit v).ci = s.ci := rfl
@[simp] theorem State.emit_cd (s : State) (v : Event) : (s.emit v).cd = s.cd := rfl
@[simp] theorem State.emit_sc (s : State) (v : Event) : (s.emit v).sc = s.sc := rfl
@[simp] theorem State.emit_ph (s : State) (v : Event) : (s.emit v).ph = s.ph := rfl
@[simp] theorem State.emit_trace (s : State) (v : Event) : (s.emit v).trace = s.trace ++ [v] := rfl
@[simp] theorem State.emit_cfg (s : State) (v : Event) : (s.emit v).cfg = s.cfg := rfl
@[simp] theorem State.emit_sched (s : State) (v : Event) : (s.emit v).sched = s.sched := rfl

@[simp] theorem State.setSched_lc (s : State) (v : List Move) : (s.setSched v).lc = s.lc := rfl
@[simp] theorem State.setSched_os (s : State) (v : List Move) : (s.setSched v).os = s.os := rfl
@[simp] theorem State.setSched_dl (s : State) (v : List Move) : (s.setSched v).dl = s.dl := rfl
@[simp] theorem State.setSched_tr (s : State) (v : List Move) : (s.setSched v).tr = s.tr := rfl
@[simp] theorem State.setSched_ci (s : State) (v : List Move) : (s.setSched v).ci = s.ci := rfl
@[simp] theorem State.setSched_cd (s : State) (v : List Move) : (s.setSched v).cd = s.cd := rfl
@[simp] theorem State.setSched_sc (s : State) (v : List Move) : (s.setSched v).sc = s.sc := rfl
@[simp] theorem State.setSched_ph (s : State) (v : List Move) : (s.setSched v).ph = s.ph := rfl
@[simp] theorem State.setSched_trace (s : State) (v : List Move) : (s.setSched v).trace = s.trace := rfl
@[simp] theorem State.setSched_cfg (s : State) (v : List Move) : (s.setSched v).cfg = s.cfg := rfl
@[simp] theorem State.setSched_sched (s : State) (v : List Move) : (s.setSched v).sched = v := rfl

end Sys2Proof.Machine
end

