-- ==== Sys2Proof/Laws/Ops.lean ====
section
/-! SUPPORT. For each shared operation, everything it does, said once; and the meanings as one record update each. -/

namespace Sys2Proof.Machine

/-- The integer reading of R143's `max(DL - 1, 0)` agrees with natural subtraction. -/
theorem dutyDown_val (d : Duty) : (dutyDown d).val = d.val - 1 := by
  simp only [dutyDown]
  omega

theorem dutyUp_val (d : Duty) : (dutyUp d).val = min (d.val + 1) 10 := rfl

/-- The converter is exact for every legal `SCALE` (R146). -/
theorem reloadOf_exact {cfg : Config} (h : cfg.scale ≤ 25) (d : Duty) :
    (reloadOf cfg d).toNat + d.val * cfg.scale = 256 := by
  have hd : d.val ≤ 10 := by omega
  have hm : d.val * cfg.scale ≤ 10 * 25 := Nat.mul_le_mul hd h
  rw [reloadOf, BitVec.toNat_ofNat, Nat.mod_eq_of_lt (by omega)]
  omega

/-- An increment never leaves the counter's width (R145). -/
theorem incCnt_le {cfg : Config} {v : Nat} (h : v ≤ cfg.cntMax) : incCnt cfg v ≤ cfg.cntMax := by
  simp only [incCnt]
  split
  · omega
  · split <;> omega

theorem cntMax_pos {cfg : Config} (h : 1 ≤ cfg.cntW) : 1 ≤ cfg.cntMax := by
  have : 2 ^ 1 ≤ 2 ^ cfg.cntW := Nat.pow_le_pow_right (by omega) h
  simp only [Config.cntMax]
  omega

theorem moveTail_eq (k : StatusKind) (s : State) :
    moveTail k s =
      { s with
        ci := 0
        cd := 0
        lc := if s.cfg.moveClears then noneByte else s.lc
        trace := s.trace ++ [.status k] } := by
  cases h : s.cfg.moveClears <;> simp [moveTail, h, State.setCi, State.setCd, State.setLc, State.emit]

theorem convert_eq (d : Duty) (s : State) :
    convert d s = { s with tr := reloadOf s.cfg d, trace := s.trace ++ [.setReload (reloadOf s.cfg d)] } := rfl

theorem setDuty_eq (d : Duty) (s : State) :
    setDuty d s =
      { s with
        dl := d
        tr := reloadOf s.cfg d
        trace := s.trace ++ [.setReload (reloadOf s.cfg d), .status (.duty (percent d))] } := by
  simp [setDuty, convert, State.setDl, State.setTr, State.emit]

theorem postDispatch_eq (c : Instr) (s : State) :
    postDispatch c s =
      { s with ci := if isUp c then s.ci else 0, cd := if isDown c then s.cd else 0 } := by
  cases c <;> rfl

theorem phaseUpdate_eq (c : Instr) (s : State) :
    phaseUpdate c s =
      { s with
        ph := if isMovement c then .delay else .sample
        trace := s.trace ++ (if isMovement c then [.delayReq] else []) } := by
  cases c <;> simp [phaseUpdate, isMovement, State.setPh, State.emit]

theorem finishCommit_eq (c : Instr) (s : State) :
    finishCommit c s =
      { s with
        ci := if isUp c then s.ci else 0
        cd := if isDown c then s.cd else 0
        ph := if isMovement c then .delay else .sample
        trace := s.trace ++ (if isMovement c then [.delayReq] else []) } := by
  rw [finishCommit, phaseUpdate_eq, postDispatch_eq]

/-- The state after the COMMIT of a movement command with status kind `k` that makes OS `v`. -/
theorem movement_eq {c : Instr} (hm : isMovement c = true) (hu : isUp c = false) (hd : isDown c = false)
    (k : StatusKind) (v : Byte) (s : State) :
    finishCommit c (moveTail k (s.setOs v)) =
      { s with
        os := v
        ci := 0
        cd := 0
        lc := if s.cfg.moveClears then noneByte else s.lc
        ph := .delay
        trace := s.trace ++ [.status k, .delayReq] } := by
  simp [finishCommit_eq, moveTail_eq, hm, hu, hd, State.setOs]

theorem execForward_eq (s : State) :
    execForward s =
      .next { s with
        os := forwardOs s.os
        ci := 0
        cd := 0
        lc := if s.cfg.moveClears then noneByte else s.lc
        ph := .delay
        trace := s.trace ++ [.status .frente, .delayReq] } := by
  rw [execForward, movement_eq rfl rfl rfl]

theorem execBackward_eq (s : State) :
    execBackward s =
      .next { s with
        os := backwardOs s.cfg.bwdMode s.os
        ci := 0
        cd := 0
        lc := if s.cfg.moveClears then noneByte else s.lc
        ph := .delay
        trace := s.trace ++ [.status .atras, .delayReq] } := by
  rw [execBackward, movement_eq rfl rfl rfl]

theorem execToggleLow_eq (s : State) :
    execToggleLow s =
      .next { s with
        os := toggleLowOs s.os
        ci := 0
        cd := 0
        lc := if s.cfg.moveClears then noneByte else s.lc
        ph := .delay
        trace := s.trace ++ [.status .piscaMenos, .delayReq] } := by
  rw [execToggleLow, movement_eq rfl rfl rfl]

theorem execToggleHigh_eq (s : State) :
    execToggleHigh s =
      .next { s with
        os := toggleHighOs s.os
        ci := 0
        cd := 0
        lc := if s.cfg.moveClears then noneByte else s.lc
        ph := .delay
        trace := s.trace ++ [.status .piscaMais, .delayReq] } := by
  rw [execToggleHigh, movement_eq rfl rfl rfl]

/-- INTENSITY_UP on an edge. -/
theorem execIntensityUp_edge {s : State} (h : s.ci = 0) :
    execIntensityUp s =
      .next { s with
        dl := dutyUp s.dl
        tr := reloadOf s.cfg (dutyUp s.dl)
        ci := incCnt s.cfg 0
        cd := 0
        ph := .sample
        trace := s.trace ++ [.setReload (reloadOf s.cfg (dutyUp s.dl)), .status (.duty (percent (dutyUp s.dl)))] } := by
  simp [execIntensityUp, upEdge, h, setDuty_eq, finishCommit_eq, isUp, isDown, isMovement, State.setCi]

/-- INTENSITY_UP off an edge. -/
theorem execIntensityUp_held {s : State} (h : s.ci ≠ 0) :
    execIntensityUp s = .next { s with ci := incCnt s.cfg s.ci, cd := 0, ph := .sample } := by
  simp [execIntensityUp, upEdge, h, finishCommit_eq, isUp, isDown, isMovement, State.setCi]

/-- INTENSITY_DOWN on an edge. -/
theorem execIntensityDown_edge {s : State} (h : s.cd = 0) :
    execIntensityDown s =
      .next { s with
        dl := dutyDown s.dl
        tr := reloadOf s.cfg (dutyDown s.dl)
        ci := 0
        cd := incCnt s.cfg 0
        ph := .sample
        trace := s.trace ++ [.setReload (reloadOf s.cfg (dutyDown s.dl)), .status (.duty (percent (dutyDown s.dl)))] } := by
  simp [execIntensityDown, downEdge, h, setDuty_eq, finishCommit_eq, isUp, isDown, isMovement, State.setCd]

/-- INTENSITY_DOWN off an edge. -/
theorem execIntensityDown_held {s : State} (h : s.cd ≠ 0) :
    execIntensityDown s = .next { s with ci := 0, cd := incCnt s.cfg s.cd, ph := .sample } := by
  simp [execIntensityDown, downEdge, h, finishCommit_eq, isUp, isDown, isMovement, State.setCd]

theorem execDefault_eq (b : Byte) (s : State) :
    execDefault b s = .next { s with lc := noneByte, ci := 0, cd := 0, ph := .sample } := by
  simp [execDefault, finishCommit_eq, isUp, isDown, isMovement, State.setLc]

theorem sampleCommand_eq (s : State) : sampleCommand s = { s with sc := s.lc, ph := .commit } := rfl

theorem delayDone_eq (s : State) : delayDone s = { s with ph := .sample } := rfl

theorem rxWrite_eq (b : Byte) (s : State) : rxWrite b s = { s with lc := b } := rfl

/-- A movement command is one OS pattern, one status kind and the shared rest. -/
theorem exec_movement {i : Instr} (hi : isMovement i = true) :
    ∃ (f : Config → Byte → Byte) (k : StatusKind), ∀ s,
      exec i s =
        .next { s with
          os := f s.cfg s.os
          ci := 0
          cd := 0
          lc := if s.cfg.moveClears then noneByte else s.lc
          ph := .delay
          trace := s.trace ++ [.status k, .delayReq] } := by
  cases i with
  | forward => exact ⟨fun _ => forwardOs, .frente, fun s => execForward_eq s⟩
  | backward => exact ⟨fun c => backwardOs c.bwdMode, .atras, fun s => execBackward_eq s⟩
  | toggleLow => exact ⟨fun _ => toggleLowOs, .piscaMenos, fun s => execToggleLow_eq s⟩
  | toggleHigh => exact ⟨fun _ => toggleHighOs, .piscaMais, fun s => execToggleHigh_eq s⟩
  | intensityUp => simp [isMovement] at hi
  | intensityDown => simp [isMovement] at hi
  | defaultCmd b => simp [isMovement] at hi

/-- No command looks at the moves still to come, or changes them. -/
theorem finishCommit_sched (c : Instr) (s : State) : (finishCommit c s).sched = s.sched := by
  rw [finishCommit_eq]

/-- No command changes the configuration (R33). -/
theorem finishCommit_cfg (c : Instr) (s : State) : (finishCommit c s).cfg = s.cfg := by
  rw [finishCommit_eq]

end Sys2Proof.Machine
end

