-- ==== Sys2Proof/Laws/PerInstr.lean ====
section
/-! SUPPORT. Per command: its byte under the default `CMD_MAP` matches its row of `spec/opcode_table.json`. -/

namespace Sys2Proof.Laws

/-- A row of the table: the bits it looks at and the value they have. -/
structure TableRow where
  mask : Byte
  value : Byte
  deriving DecidableEq, Repr

/-- The `mask` and `match` of the command's row in `spec/opcode_table.json`. -/
def tableRow : Instr → TableRow
  | .forward => ⟨0xFF#8, 0x46#8⟩
  | .backward => ⟨0xFF#8, 0x41#8⟩
  | .toggleLow => ⟨0xFF#8, 0x44#8⟩
  | .toggleHigh => ⟨0xFF#8, 0x45#8⟩
  | .intensityUp => ⟨0xFF#8, 0x50#8⟩
  | .intensityDown => ⟨0xFF#8, 0x4C#8⟩
  | .defaultCmd _ => ⟨0x00#8, 0x00#8⟩

/-- The command's byte matches its row. -/
def MatchesRow.Statement (i : Instr) : Prop :=
  encode CmdMap.specDefault i &&& (tableRow i).mask = (tableRow i).value

theorem MatchesRow.forward : MatchesRow.Statement .forward := by
  unfold MatchesRow.Statement
  decide

theorem MatchesRow.backward : MatchesRow.Statement .backward := by
  unfold MatchesRow.Statement
  decide

theorem MatchesRow.toggleLow : MatchesRow.Statement .toggleLow := by
  unfold MatchesRow.Statement
  decide

theorem MatchesRow.toggleHigh : MatchesRow.Statement .toggleHigh := by
  unfold MatchesRow.Statement
  decide

theorem MatchesRow.intensityUp : MatchesRow.Statement .intensityUp := by
  unfold MatchesRow.Statement
  decide

theorem MatchesRow.intensityDown : MatchesRow.Statement .intensityDown := by
  unfold MatchesRow.Statement
  decide

theorem MatchesRow.defaultCmd (b : Byte) : MatchesRow.Statement (.defaultCmd b) := by
  simp [MatchesRow.Statement, tableRow]

end Sys2Proof.Laws
end

