-- ==== Sys2Proof/Laws/Step.lean ====
section
/-! SUPPORT. What one step can do, said once: every later proof about steps starts from `step_cases`. -/

namespace Sys2Proof.Machine

/-- A step of a legal machine is its next move. -/
theorem step_of_wf {s : State} (h : s.cfg.wf = true) :
    step s = takeMove (nextMove s.sched) (s.setSched s.sched.tail) := by
  simp [step, stepOnce, h]

theorem step_of_not_wf {s : State} (h : s.cfg.wf = false) : step s = .refused .illegalConfiguration := by
  simp [step, stepOnce, h]

/-- A step that answers a next state is an RX write, a SAMPLE, a COMMIT or the end of a pause. -/
theorem step_cases {s t : State} (h : step s = .next t) :
    s.cfg.wf = true ∧
      ((∃ b, nextMove s.sched = .rx b ∧ t = rxWrite b (s.setSched s.sched.tail)) ∨
        (nextMove s.sched = .own ∧ s.ph = .sample ∧ t = sampleCommand (s.setSched s.sched.tail)) ∨
        (nextMove s.sched = .own ∧ s.ph = .commit ∧
          exec (sampledInstr s) (s.setSched s.sched.tail) = .next t) ∨
        (nextMove s.sched = .own ∧ s.ph = .delay ∧ t = delayDone (s.setSched s.sched.tail))) := by
  cases hw : s.cfg.wf with
  | false => simp [step_of_not_wf hw] at h
  | true =>
    refine ⟨rfl, ?_⟩
    rw [step_of_wf hw] at h
    cases hm : nextMove s.sched with
    | rx b =>
      rw [hm] at h
      exact .inl ⟨b, rfl, (Host.Outcome.next.inj h).symm⟩
    | own =>
      rw [hm] at h
      cases hp : s.ph with
      | sample =>
        simp only [takeMove, ownStep, State.setSched_ph, hp] at h
        exact .inr (.inl ⟨rfl, rfl, (Host.Outcome.next.inj h).symm⟩)
      | commit =>
        simp only [takeMove, ownStep, State.setSched_ph, hp] at h
        exact .inr (.inr (.inl ⟨rfl, rfl, h⟩))
      | delay =>
        simp only [takeMove, ownStep, State.setSched_ph, hp] at h
        exact .inr (.inr (.inr ⟨rfl, rfl, (Host.Outcome.next.inj h).symm⟩))

theorem placeCommand_eq (b : Byte) (s : State) :
    placeCommand b s = { s with sc := b, ph := .commit, sched := ownFirst s.sched } := rfl

/-- After `ownFirst` the block's own step comes next, and the moves behind it are those there were. -/
theorem nextMove_ownFirst (ms : List Move) : nextMove (ownFirst ms) = .own := by
  cases ms with
  | nil => rfl
  | cons m ms => cases m <;> rfl

end Sys2Proof.Machine
end

