-- ==== Sys2Proof/Tests/Slice0.lean ====
section
/-! SUPPORT. The model's own tests. Expected values come from `spec/95_test_vectors.md` (the V- names) and
`spec/30_encoding.md` R73; the witnesses show, for each statement of Certificates/Slice0/Obligations.lean that has hypotheses, a
concrete state that meets them. -/

namespace Sys2Proof.Tests

open Sys2Proof.Machine

/-! ### What is ill-formed is refused -/

theorem test_wf_refuses_default_of_a_letter : (Instr.defaultCmd 0x46#8).wf = false := by decide

theorem test_wf_accepts_default_of_none : (Instr.defaultCmd 0x00#8).wf = true := by decide

theorem test_wf_refuses_scale_0 : ({ Config.specDefault with scale := 0 } : Config).wf = false := by decide

theorem test_wf_refuses_scale_26 : ({ Config.specDefault with scale := 26 } : Config).wf = false := by decide

theorem test_wf_refuses_width_0 : ({ Config.specDefault with cntW := 0 } : Config).wf = false := by decide

theorem test_wf_refuses_a_map_that_is_not_one_to_one :
    ({ CmdMap.specDefault with l := .backward } : CmdMap).wf = false := by decide

theorem test_wf_accepts_the_default : Config.specDefault.wf = true := by decide

/-! ### Words written out from R73 -/

theorem test_decode_forward : decodeTableWord 8 0b01000110 = some .forward := by decide

theorem test_decode_backward : decodeTableWord 8 0b01000001 = some .backward := by decide

theorem test_decode_toggle_low : decodeTableWord 8 0b01000100 = some .toggleLow := by decide

theorem test_decode_toggle_high : decodeTableWord 8 0b01000101 = some .toggleHigh := by decide

theorem test_decode_intensity_up : decodeTableWord 8 0b01010000 = some .intensityUp := by decide

theorem test_decode_intensity_down : decodeTableWord 8 0b01001100 = some .intensityDown := by decide

theorem test_decode_default : decodeTableWord 8 0b01011010 = some (.defaultCmd 0x5A#8) := by decide

theorem test_decode_lowercase : decodeTableWord 8 0b01110000 = some (.defaultCmd 0x70#8) := by decide

theorem test_decode_other_map :
    decode { a := .intensityDown, d := .toggleHigh, e := .toggleLow, l := .backward } 0x41#8 = .intensityDown := by decide

theorem test_decode_two_bytes_refused : decodeTableWord 16 0x0046 = none := by decide

theorem test_encode_letters :
    encode CmdMap.specDefault .backward = 0x41#8 ∧ encode CmdMap.specDefault .intensityDown = 0x4C#8 := by decide

/-! ### One COMMIT -/

/-- The next state of an outcome. -/
def nextOf : Host.Outcome State Fault Refusal → Option State
  | .next t => some t
  | .fault _ => none
  | .refused _ => none

/-- A state with PH at COMMIT and the byte `b` sampled. -/
def committing (b : Byte) : State := { State.reset with sc := b, lc := b, ph := .commit }

/-- The same with OS `os`. -/
def withOs (b os : Byte) : State := { committing b with os := os }

/-- The same with a duty level, its reload at SCALE 25, and the counters. -/
def withDuty (b : Byte) (dl : Duty) (ci cd : Nat) : State :=
  { committing b with dl := dl, tr := reloadOf Config.specDefault dl, ci := ci, cd := cd }

/-- The duty registers, the counters, the phase and the new events. -/
structure DutyView where
  dl : Nat
  tr : Nat
  ci : Nat
  cd : Nat
  ph : Phase
  events : List Event
  deriving DecidableEq, Repr

/-- What a test looks at of a state. -/
def dutyView (t : State) : DutyView :=
  ⟨t.dl.val, t.tr.toNat, t.ci, t.cd, t.ph, t.trace.tail⟩

/-- V-P4. -/
theorem test_forward_drops_low_bits : (nextOf (exec .forward (withOs 0x46#8 0xFF#8))).map (·.os) = some 0x01#8 := by decide

/-- V-P11 under `MOVE_CLEARS`. -/
theorem test_forward_clears :
    (nextOf (exec .forward
      { withDuty 0x46#8 3 7 0 with cfg := { Config.specDefault with moveClears := true } })).map
        (fun t => (t.lc, t.os, t.dl, t.ci, t.ph)) = some (0x00#8, 0x02#8, 3, 0, .delay) := by decide

/-- V-P5. -/
theorem test_backward_precheck : (nextOf (exec .backward (withOs 0x41#8 0x01#8))).map (·.os) = some 0x00#8 := by decide

/-- V-P6. -/
theorem test_backward_postcheck :
    (nextOf (exec .backward { withOs 0x41#8 0x01#8 with cfg := { Config.specDefault with bwdMode := .postcheck } })).map
      (·.os) = some 0x80#8 := by decide

/-- V-P9c. -/
theorem test_toggle_low : (nextOf (exec .toggleLow (withOs 0x44#8 0xA5#8))).map (·.os) = some 0xAA#8 := by decide

/-- V-P10b, with the events of P5. -/
theorem test_toggle_high :
    (nextOf (exec .toggleHigh (withOs 0x45#8 0xA5#8))).map (fun t => (t.os, t.trace.tail)) =
      some (0x55#8, [.status .piscaMais, .delayReq]) := by decide

/-- V-I5. -/
theorem test_up_edge :
    (nextOf (exec .intensityUp (withDuty 0x50#8 4 0 3))).map dutyView =
      some ⟨5, 131, 1, 0, .sample, [.setReload 131#9, .status (.duty 50)]⟩ := by decide

/-- V-I6b. -/
theorem test_up_wraps :
    (nextOf (exec .intensityUp
      { withDuty 0x50#8 5 255 0 with cfg := { Config.specDefault with cntOvf := .wrap } })).map dutyView =
      some ⟨5, 131, 0, 0, .sample, []⟩ := by decide

/-- V-I10. -/
theorem test_down_at_limit :
    (nextOf (exec .intensityDown (withDuty 0x4C#8 0 0 0))).map dutyView =
      some ⟨0, 256, 0, 1, .sample, [.setReload 256#9, .status (.duty 0)]⟩ := by decide

/-- V-I13. -/
theorem test_down_clears_ci :
    (nextOf (exec .intensityDown (withDuty 0x4C#8 5 4 0))).map dutyView =
      some ⟨4, 156, 0, 1, .sample, [.setReload 156#9, .status (.duty 40)]⟩ := by decide

/-- V-D2. -/
theorem test_default_clears :
    (nextOf (exec (.defaultCmd 0x5A#8) (withDuty 0x5A#8 3 4 0))).map (fun t => (t.lc, dutyView t)) =
      some (0x00#8, ⟨3, 181, 0, 0, .sample, []⟩) := by decide

/-! ### One step -/

/-- V-Z1. -/
theorem test_reset :
    (State.reset.lc, State.reset.os, dutyView State.reset, State.reset.serialOut.length) =
      (0x00#8, 0x01#8, ⟨1, 231, 0, 0, .sample, []⟩, 41) := by decide

/-- V-R4. -/
theorem test_sample_keeps_lc :
    (nextOf (step { State.reset with lc := 0x4C#8 })).map (fun t => (t.lc, t.sc, t.ph)) =
      some (0x4C#8, 0x4C#8, .commit) := by decide

/-- V-R2, its second step: the byte that arrives before the COMMIT. -/
theorem test_rx_between :
    (nextOf (step { committing 0x50#8 with sched := [.rx 0x5A#8] })).map (fun t => (t.lc, t.sc, t.ph, t.sched)) =
      some (0x5A#8, 0x50#8, .commit, []) := by decide

theorem test_fetched_word_runs :
    (nextOf (step (State.reset.withFetchWord 8 0x44))).map (fun t => (t.os, t.ph)) = some (0x0E#8, .delay) := by decide

theorem test_fetched_word_runs_before_rx :
    (nextOf (step ({ State.reset with sched := [.rx 0x50#8] }.withFetchWord 8 0x44))).map (fun t => (t.os, t.sched)) =
      some (0x0E#8, [.rx 0x50#8]) := by decide

/-! ### Witnesses of the statements' hypotheses -/

/-- A legal configuration at the other ends of the ranges of R6 and R7. -/
def narrow : Config :=
  { scale := 1, cntW := 1, cntOvf := .wrap, moveClears := true, bwdMode := .postcheck
    cmdMap := { a := .intensityDown, d := .toggleHigh, e := .toggleLow, l := .backward } }

/-- `IllegalScaleRefused`, both disjuncts at their boundaries. -/
def scaled (n : Nat) : State := State.resetWith { Config.specDefault with scale := n }

theorem reset_inv : State.reset.Inv := by constructor <;> decide

theorem pressed_inv : (committing 0x50#8).Inv := by constructor <;> decide

theorem paused_inv : ({ committing 0x46#8 with ph := .delay } : State).Inv := by constructor <;> decide

theorem witness_DecodeEncodeRoundTrip :
    narrow.cmdMap.wf = true ∧ (Instr.defaultCmd 0xFF#8).wf = true ∧ Instr.backward.wf = true := by decide

theorem witness_EncodeDecodeRoundTrip : narrow.cmdMap.wf = true ∧ CmdMap.specDefault.wf = true := by decide

theorem witness_DefaultBytesAre250 :
    CmdMap.specDefault.wf = true ∧ 0x6C#8 ∈ [0x66#8, 0x61#8, 0x64#8, 0x65#8, 0x70#8, 0x6C#8] ∧
      Instr.backward ∈ [Instr.forward, .backward, .toggleLow, .toggleHigh, .intensityUp, .intensityDown] := by decide

theorem witness_StepRunsDecodedInstruction :
    (committing 0xFF#8).cfg.wf = true ∧ (committing 0xFF#8).ph = .commit ∧ nextMove (committing 0xFF#8).sched = .own := by
  decide

theorem witness_SampleIsTheOneReadOfLatestCommand :
    State.reset.cfg.wf = true ∧ State.reset.ph = .sample ∧ nextMove State.reset.sched = .own := by decide

theorem witness_SampleIsTheOneReadOfLatestCommand_others :
    (committing 0x5A#8).ph ≠ .sample ∧ nextMove (committing 0x5A#8).sched = .own ∧ ∃ t, step (committing 0x5A#8) = .next t :=
  ⟨by decide, by decide, _, rfl⟩

theorem witness_DelayDoneReturnsToSample :
    ({ State.reset with ph := .delay } : State).cfg.wf = true ∧ ({ State.reset with ph := .delay } : State).ph = .delay ∧
      nextMove ({ State.reset with ph := .delay } : State).sched = .own := by decide

theorem witness_RxWritesLatestCommandOnly :
    ({ State.reset with sched := [.rx 0x00#8] } : State).cfg.wf = true ∧
      ({ State.reset with sched := [.rx 0x00#8] } : State).sched = .rx 0x00#8 :: [] := by decide

theorem witness_BlockIsTotal : (scaled 1).cfg.wf = true ∧ (scaled 25).cfg.wf = true := by decide

theorem witness_IllegalScaleRefused :
    25 < ({ Config.specDefault with scale := 26 } : Config).scale ∧ 25 < (scaled 26).cfg.scale ∧ (scaled 0).cfg.scale = 0 := by
  decide

theorem witness_RxCommutesWithCommit :
    commitClearsLc Config.specDefault .forward = false ∧ commitClearsLc narrow .forward = true ∧
      commitClearsLc Config.specDefault (.defaultCmd 0x00#8) = true := by decide

theorem witness_EnabledActionsAreSteps :
    State.reset.cfg.wf = true ∧ (Action.rx 0xFF#8 ≠ .reset ∧ actionEnabled (.rx 0xFF#8) State.reset = true) ∧
      (Action.sample ≠ .reset ∧ actionEnabled .sample State.reset = true) ∧
      (Action.commit ≠ .reset ∧ actionEnabled .commit (committing 0x50#8) = true) ∧
      (Action.delayDone ≠ .reset ∧ actionEnabled .delayDone { State.reset with ph := .delay } = true) := by decide

theorem witness_EnabledActionsAreSteps_step :
    ∃ t, step { State.reset with sched := .own :: [] } = .next t := ⟨_, rfl⟩

theorem witness_IterationIsItsSteps :
    State.reset.cfg.wf = true ∧ State.reset.ph = .sample ∧ State.reset.sched = [] := by decide

theorem witness_ResetState : ({ Config.specDefault with scale := 1 } : Config).wf = true ∧ Config.specDefault.wf = true := by
  decide

theorem witness_ResetMeetsInvariant : narrow.wf = true := by decide

theorem witness_StepKeepsInvariant : State.reset.Inv ∧ ∃ t, step State.reset = .next t := ⟨reset_inv, _, rfl⟩

theorem witness_StepKeepsTraceShape :
    (committing 0x50#8).traceOk = true ∧ ∃ t, step (committing 0x50#8) = .next t := ⟨by decide, _, rfl⟩

theorem witness_StepKeepsReloadEvents :
    reloadOfEvents (reloadOf (committing 0x50#8).cfg 1) (committing 0x50#8).trace = (committing 0x50#8).tr ∧
      ∃ t, step (committing 0x50#8) = .next t := ⟨by decide, _, rfl⟩

theorem witness_TraceOnlyGrows :
    (∃ t, step (committing 0x50#8) = .next t) ∧
      ((∃ t, step State.reset = .next t) ∧ ¬(State.reset.ph = .commit ∧ nextMove State.reset.sched = .own)) ∧
      (∃ t, step { committing 0x50#8 with sched := [.rx 0x5A#8] } = .next t) ∧
      ¬((committing 0x50#8).ph = .commit ∧ nextMove [.rx 0x5A#8] = .own) :=
  ⟨⟨_, rfl⟩, ⟨⟨_, rfl⟩, by decide⟩, ⟨_, rfl⟩, by decide⟩

theorem witness_ConfigurationNeverChanges : ∃ t, step (committing 0x46#8) = .next t := ⟨_, rfl⟩

theorem witness_OutputChangesOnlyByMovement :
    ∃ t, step (committing 0x46#8) = .next t ∧ t.os ≠ (committing 0x46#8).os := ⟨_, rfl, by decide⟩

theorem witness_DutyChangesOnlyOnEdges :
    (committing 0x50#8).Inv ∧
      ∃ t, step (committing 0x50#8) = .next t ∧ t.dl ≠ (committing 0x50#8).dl ∧ t.tr ≠ (committing 0x50#8).tr :=
  ⟨pressed_inv, _, rfl, by decide, by decide⟩

theorem witness_results_cmdMap :
    CmdMap.specDefault.a = .backward ∧ CmdMap.specDefault.d = .toggleLow ∧ CmdMap.specDefault.e = .toggleHigh ∧
      CmdMap.specDefault.l = .intensityDown := by decide

/-- `IntensityUpResult`: the edge clause at both ends of DL, and the other clause at a counter's ends. -/
theorem witness_IntensityUpResult :
    (withDuty 0x50#8 10 0 0).cfg.wf = true ∧ (withDuty 0x50#8 10 0 0).ci = 0 ∧ (withDuty 0x50#8 0 0 0).ci = 0 ∧
      (withDuty 0x50#8 5 1 0).ci ≠ 0 ∧ (withDuty 0x50#8 5 255 0).ci ≠ 0 := by decide

theorem witness_IntensityDownResult :
    (withDuty 0x4C#8 0 0 0).cfg.wf = true ∧ (withDuty 0x4C#8 0 0 0).cd = 0 ∧ (withDuty 0x4C#8 10 0 0).cd = 0 ∧
      (withDuty 0x4C#8 5 0 1).cd ≠ 0 ∧ (withDuty 0x4C#8 5 0 255).cd ≠ 0 := by decide

theorem witness_DefaultResult :
    0x00#8 ∉ [0x46#8, 0x41#8, 0x44#8, 0x45#8, 0x50#8, 0x4C#8] ∧ 0xFF#8 ∉ [0x46#8, 0x41#8, 0x44#8, 0x45#8, 0x50#8, 0x4C#8] := by
  decide

theorem witness_CommitEventOrder : ∃ t, exec .intensityUp (withDuty 0x50#8 10 0 0) = .next t := ⟨_, rfl⟩

theorem witness_PostDispatchClearsCounters :
    ∃ t, exec .forward (withDuty 0x46#8 3 7 0) = .next t ∧ Instr.forward ≠ .intensityUp ∧ Instr.forward ≠ .intensityDown :=
  ⟨_, rfl, by decide, by decide⟩

theorem witness_PhaseAfterCommit :
    (∃ t, exec .toggleHigh (committing 0x45#8) = .next t) ∧
      Instr.toggleHigh ∈ [Instr.forward, .backward, .toggleLow, .toggleHigh] ∧
      (∃ t, exec .intensityUp (committing 0x50#8) = .next t) ∧
      Instr.intensityUp ∉ [Instr.forward, .backward, .toggleLow, .toggleHigh] :=
  ⟨⟨_, rfl⟩, by decide, ⟨_, rfl⟩, by decide⟩

theorem witness_ForwardRotatesOneHot :
    (withOs 0x46#8 0x01#8).os.toNat = 2 ^ (0 : Fin 8).val ∧ (withOs 0x46#8 0x80#8).os.toNat = 2 ^ (7 : Fin 8).val := by decide

theorem witness_BackwardCycles :
    (State.resetWith narrow).cfg.bwdMode = .postcheck ∧ (State.resetWith narrow).os.toNat = 2 ^ (0 : Fin 8).val ∧
      (withOs 0x41#8 0x80#8).cfg.bwdMode = .precheck ∧ (withOs 0x41#8 0x80#8).os.toNat = 2 ^ (7 : Fin 8).val ∧
      0 < (7 : Fin 8).val ∧ 0 < (1 : Fin 8).val ∧ (withOs 0x41#8 0x02#8).os.toNat = 2 ^ (1 : Fin 8).val ∧
      (withOs 0x41#8 0x01#8).cfg.bwdMode = .precheck ∧ (withOs 0x41#8 0x01#8).os.toNat = 1 ∧
      (withOs 0x41#8 0x00#8).os.toNat = 0 ∧ (withOs 0x41#8 0x00#8).os = 0x00#8 := by decide

theorem witness_edge_lists :
    State.reset.cfg.wf = true ∧ [Instr.defaultCmd 0x00#8, .forward] ≠ [] ∧
      ∀ i ∈ [Instr.defaultCmd 0x00#8, .forward], i ≠ .intensityUp ∧ i ≠ .intensityDown := by decide

/-- A machine about to sample `b`, nothing scheduled. -/
def holding (cfg : Config) (b : Byte) : State := { State.resetWith cfg with lc := b }

theorem witness_HeldUpUnderSaturate :
    Config.specDefault.wf = true ∧ (holding Config.specDefault 0x50#8).cfg.cntOvf = .saturate ∧
      (holding Config.specDefault 0x50#8).ph = .sample ∧ (holding Config.specDefault 0x50#8).sched = [] ∧
      decode (holding Config.specDefault 0x50#8).cfg.cmdMap (holding Config.specDefault 0x50#8).lc = .intensityUp ∧
      (holding Config.specDefault 0x50#8).ci = 0 := by decide

theorem witness_HeldUpUnderWrap :
    narrow.wf = true ∧ (holding narrow 0x50#8).cfg.cntOvf = .wrap ∧ (holding narrow 0x50#8).ph = .sample ∧
      (holding narrow 0x50#8).sched = [] ∧
      decode (holding narrow 0x50#8).cfg.cmdMap (holding narrow 0x50#8).lc = .intensityUp ∧ (holding narrow 0x50#8).ci = 0 := by
  decide

theorem witness_HeldDownFires :
    (holding narrow 0x41#8).cfg.wf = true ∧ (holding narrow 0x41#8).ph = .sample ∧ (holding narrow 0x41#8).sched = [] ∧
      decode (holding narrow 0x41#8).cfg.cmdMap (holding narrow 0x41#8).lc = .intensityDown ∧
      (holding narrow 0x41#8).cd = 0 ∧ (holding narrow 0x41#8).cfg.cntOvf = .wrap ∧
      decode Config.specDefault.cmdMap (holding Config.specDefault 0x4C#8).lc = .intensityDown ∧
      (holding Config.specDefault 0x4C#8).cfg.cntOvf = .saturate := by decide

theorem witness_CounterIncrement :
    255 < 2 ^ Config.specDefault.cntW ∧ Config.specDefault.cntOvf = .saturate ∧ 1 < 2 ^ narrow.cntW ∧
      narrow.cntOvf = .wrap := by decide

theorem witness_ConverterExact : narrow.wf = true ∧ (9 : Duty).val < 10 := by decide

theorem witness_DutyLinesOnEdgesOnly : ∃ t, exec .intensityDown (withDuty 0x4C#8 0 0 0) = .next t := ⟨_, rfl⟩

theorem witness_OtherCommandRearms : Instr.intensityDown ≠ .intensityUp ∧ Instr.intensityUp ≠ .intensityDown := by decide

/-- `RepeatedByteDoesNotRearm`: V-I8. -/
def twice : State := { holding Config.specDefault 0x50#8 with sched := [.own, .own, .rx 0x50#8, .own, .own] }

theorem witness_RepeatedByteDoesNotRearm :
    twice.cfg.wf = true ∧ twice.ph = .sample ∧ twice.sched = [.own, .own, .rx twice.lc, .own, .own] ++ [] ∧
      decode twice.cfg.cmdMap twice.lc = .intensityUp ∧ twice.ci = 0 := by decide

theorem witness_PauseHoldsController :
    ({ committing 0x46#8 with ph := .delay } : State).cfg.wf = true ∧
      ({ committing 0x46#8 with ph := .delay } : State).ph = .delay ∧
      ∃ t, step { committing 0x46#8 with ph := .delay } = .next t := ⟨by decide, by decide, _, rfl⟩

/-- `LostByteAfterDefaultSample`: V-R1. -/
def lossy : State := { State.reset with sched := [.own, .rx 0x50#8, .own] }

theorem witness_LostByteAfterDefaultSample :
    lossy.cfg.wf = true ∧ lossy.ph = .sample ∧ lossy.sched = .own :: .rx 0x50#8 :: .own :: [] ∧
      commitClearsLc lossy.cfg (decode lossy.cfg.cmdMap lossy.lc) = true := by decide

/-- `LastByteWins`: V-R3, and the same before a SAMPLE. -/
theorem witness_LastByteWins :
    Config.specDefault.wf = true ∧
      (({ State.reset with sched := [.rx 0x50#8, .rx 0x5A#8, .own] } : State).ph = .sample ∧
        ({ State.reset with sched := [.rx 0x50#8, .rx 0x5A#8, .own] } : State).sched =
          [0x50#8].map .rx ++ .rx 0x5A#8 :: .own :: []) ∧
      ({ State.reset with ph := .delay, sched := [.rx 0x50#8, .rx 0x5A#8, .own, .own] } : State).ph = .delay ∧
      ({ State.reset with ph := .delay, sched := [.rx 0x50#8, .rx 0x5A#8, .own, .own] } : State).sched =
        [0x50#8].map .rx ++ .rx 0x5A#8 :: .own :: .own :: [] := by decide

theorem witness_SampledCommandNotReadBeforeWritten :
    State.reset.ph ≠ .commit ∧ ∃ t, step State.reset = .next t ∧ t.ph = .commit := ⟨by decide, _, rfl, rfl⟩

theorem witness_IdleIteration :
    State.reset.cfg.wf = true ∧ State.reset.ph = .sample ∧ State.reset.sched = [] ∧
      decode State.reset.cfg.cmdMap State.reset.lc = .defaultCmd State.reset.lc ∧ State.reset.lc = 0x00#8 ∧
      State.reset.sc = 0x00#8 ∧ State.reset.ci = 0 ∧ State.reset.cd = 0 := by decide

theorem witness_EveryPhaseEnds :
    ({ committing 0x46#8 with ph := .delay, sched := [.rx 0x50#8, .rx 0x46#8] } : State).cfg.wf = true := by decide

theorem witness_HeldCommandRepeats :
    (holding Config.specDefault 0x46#8).cfg.wf = true ∧ (holding Config.specDefault 0x46#8).ph = .sample ∧
      (holding Config.specDefault 0x46#8).sched = [] ∧
      commitClearsLc (holding Config.specDefault 0x46#8).cfg
        (decode (holding Config.specDefault 0x46#8).cfg.cmdMap (holding Config.specDefault 0x46#8).lc) = false := by decide

theorem witness_PortsShowRegisters : State.reset.Inv := reset_inv

end Sys2Proof.Tests
end

section
/-! PROOF. The statements about `spec/10_state.md`: the parameters (R33) and OS (R23). What the COMMIT of each command leaves
alone is said first; what a step leaves alone follows along `step_cases`. -/

namespace Sys2Proof.Machine

/-! ### What a COMMIT leaves alone -/

/-- On an edge and off it, INTENSITY_UP leaves OS and the parameters alone (R141). -/
theorem execIntensityUp_keeps_os_cfg {s t : State} (h : execIntensityUp s = .next t) : t.os = s.os ∧ t.cfg = s.cfg := by
  by_cases hedge : s.ci = 0
  · rw [execIntensityUp_edge hedge] at h
    cases h
    exact ⟨rfl, rfl⟩
  · rw [execIntensityUp_held hedge] at h
    cases h
    exact ⟨rfl, rfl⟩

/-- On an edge and off it, INTENSITY_DOWN leaves OS and the parameters alone (R143). -/
theorem execIntensityDown_keeps_os_cfg {s t : State} (h : execIntensityDown s = .next t) :
    t.os = s.os ∧ t.cfg = s.cfg := by
  by_cases hedge : s.cd = 0
  · rw [execIntensityDown_edge hedge] at h
    cases h
    exact ⟨rfl, rfl⟩
  · rw [execIntensityDown_held hedge] at h
    cases h
    exact ⟨rfl, rfl⟩

/-- DEFAULT leaves OS and the parameters alone (R170). -/
theorem execDefault_keeps_os_cfg {b : Byte} {s t : State} (h : execDefault b s = .next t) :
    t.os = s.os ∧ t.cfg = s.cfg := by
  rw [execDefault_eq] at h
  cases h
  exact ⟨rfl, rfl⟩

/-- Outside the set `MOVEMENT` of R15 no command writes OS or the parameters. -/
theorem exec_keeps_os_cfg_of_not_movement {i : Instr} {s t : State} (hi : isMovement i = false)
    (h : exec i s = .next t) : t.os = s.os ∧ t.cfg = s.cfg := by
  cases i with
  | intensityUp => exact execIntensityUp_keeps_os_cfg h
  | intensityDown => exact execIntensityDown_keeps_os_cfg h
  | defaultCmd b => exact execDefault_keeps_os_cfg h
  | forward | backward | toggleLow | toggleHigh => cases hi

/-- No command changes the parameters (R33). -/
theorem exec_keeps_cfg {i : Instr} {s t : State} (h : exec i s = .next t) : t.cfg = s.cfg := by
  cases hi : isMovement i with
  | false => exact (exec_keeps_os_cfg_of_not_movement hi h).2
  | true =>
    obtain ⟨f, k, hexec⟩ := exec_movement hi
    rw [hexec] at h
    cases h
    rfl

/-- The set `MOVEMENT` of R15, written out. -/
theorem isMovement_iff (i : Instr) :
    isMovement i = true ↔ i ∈ [Instr.forward, .backward, .toggleLow, .toggleHigh] := by
  cases i <;> simp [isMovement]

/-! ### What a step leaves alone -/

/-- No step changes the parameters (R33). -/
theorem step_keeps_cfg {s t : State} (h : step s = .next t) : t.cfg = s.cfg := by
  obtain ⟨-, ⟨b, -, rfl⟩ | ⟨-, -, rfl⟩ | ⟨-, -, hexec⟩ | ⟨-, -, rfl⟩⟩ := step_cases h
  case inr.inr.inl =>
    calc t.cfg = (s.setSched s.sched.tail).cfg := exec_keeps_cfg hexec
      _ = s.cfg := State.setSched_cfg s _
  -- RX, SAMPLE and the end of a pause each write registers other than the parameters.
  all_goals rfl

/-- A step that changes OS is the COMMIT of a movement command (R23). -/
theorem step_changes_os {s t : State} (h : step s = .next t) (hos : t.os ≠ s.os) :
    s.ph = .commit ∧ nextMove s.sched = .own ∧ isMovement (sampledInstr s) = true := by
  obtain ⟨-, ⟨b, -, rfl⟩ | ⟨-, -, rfl⟩ | ⟨hown, hph, hexec⟩ | ⟨-, -, rfl⟩⟩ := step_cases h
  case inr.inr.inl =>
    refine ⟨hph, hown, ?_⟩
    by_contra hi
    rw [Bool.not_eq_true] at hi
    exact hos (exec_keeps_os_cfg_of_not_movement hi hexec).1
  -- RX, SAMPLE and the end of a pause each write registers other than OS.
  all_goals exact absurd rfl hos

/-! ### The statements -/

/-- Settles O21. -/
theorem configurationNeverChanges : Obligations.ConfigurationNeverChanges := by
  intro s t h
  have hcfg : t.cfg = s.cfg := step_keeps_cfg h
  exact ⟨hcfg, by rw [hcfg]⟩

/-- Settles O22: the reset value by definition, the writers of OS by `step_changes_os`. -/
theorem outputChangesOnlyByMovement : Obligations.OutputChangesOnlyByMovement := by
  refine ⟨fun _ => rfl, fun s t h hos => ?_⟩
  obtain ⟨hph, hown, hmove⟩ := step_changes_os h hos
  exact ⟨hph, hown, (isMovement_iff (sampledInstr s)).mp hmove⟩

end Sys2Proof.Machine
end

section
/-! PROOF. The statement about `spec/20_memory.md`: the RX step (R53). What the head of the schedule and an RX move do is said
first, so that no proof about RX opens `nextMove` or `takeMove` again. -/

namespace Sys2Proof.Machine

/-- The move listed first is the next one, whatever comes behind it (R20). -/
@[simp] theorem nextMove_cons (m : Move) (ms : List Move) : nextMove (m :: ms) = m := rfl

/-- An RX move reads nothing, not even PH, and writes LC alone (R53). -/
@[simp] theorem takeMove_rx (b : Byte) (s : State) : takeMove (.rx b) s = .next { s with lc := b } :=
  congrArg Host.Outcome.next (rxWrite_eq b s)

/-- Settles O8: there is no case split on PH, because `takeMove_rx` holds in every phase. -/
theorem rxWritesLatestCommandOnly : Obligations.RxWritesLatestCommandOnly := by
  intro s b rest hwf hsched
  calc step s = takeMove (nextMove s.sched) (s.setSched s.sched.tail) := step_of_wf hwf
    _ = takeMove (.rx b) (s.setSched rest) := by rw [hsched, nextMove_cons, List.tail_cons]
    _ = .next { s with lc := b, sched := rest } := takeMove_rx b (s.setSched rest)

end Sys2Proof.Machine
end

section
/-! PROOF. The statements about `spec/40_iteration.md`: the COMMIT of a command is its body and then the shared finish of R102,
and no step of CTRL or DLY but SAMPLE looks at LC. -/

namespace Sys2Proof.Machine

/-! ### The end of a COMMIT -/

theorem isUp_eq_false {i : Instr} (h : i ≠ .intensityUp) : isUp i = false := by
  cases i with
  | intensityUp => exact absurd rfl h
  | forward | backward | toggleLow | toggleHigh | intensityDown | defaultCmd _ => rfl

theorem isDown_eq_false {i : Instr} (h : i ≠ .intensityDown) : isDown i = false := by
  cases i with
  | intensityDown => exact absurd rfl h
  | forward | backward | toggleLow | toggleHigh | intensityUp | defaultCmd _ => rfl

/-- The tail of a movement command reports a status and asks for no pause (R128). -/
theorem moveTail_trace (k : StatusKind) (s : State) : (moveTail k s).trace = s.trace ++ [.status k] := by
  rw [moveTail_eq]

/-- An intensity command changes the duty level on an edge only, and asks for no pause either way. -/
theorem ite_setDuty_trace (edge : Bool) (d : Duty) (s : State) :
    ∃ es, (if edge then setDuty d s else s).trace = s.trace ++ es ∧ Event.delayReq ∉ es := by
  cases edge with
  | true => exact ⟨[.setReload _, .status _], by rw [if_pos rfl, setDuty_eq], by simp⟩
  | false => exact ⟨[], (List.append_nil s.trace).symm, List.not_mem_nil⟩

/-- The COMMIT of a command ends with `finishCommit` (R102), and what its body emits before that is never `DELAY_REQ`: the pause
is asked for by the phase update alone (R107). -/
theorem exec_eq_finishCommit (i : Instr) (s : State) :
    ∃ (u : State) (es : List Event),
      exec i s = .next (finishCommit i u) ∧ u.trace = s.trace ++ es ∧ Event.delayReq ∉ es := by
  cases i with
  | forward | backward | toggleLow | toggleHigh => exact ⟨_, _, rfl, moveTail_trace _ _, by simp⟩
  | intensityUp =>
    obtain ⟨es, htrace, hes⟩ := ite_setDuty_trace (upEdge s) (dutyUp s.dl) s
    exact ⟨_, es, rfl, htrace, hes⟩
  | intensityDown =>
    obtain ⟨es, htrace, hes⟩ := ite_setDuty_trace (downEdge s) (dutyDown s.dl) s
    exact ⟨_, es, rfl, htrace, hes⟩
  | defaultCmd b => exact ⟨_, [], rfl, (List.append_nil s.trace).symm, List.not_mem_nil⟩

/-! ### LC in a COMMIT -/

/-- The shared finish of a COMMIT does not look at LC. -/
theorem finishCommit_setLc (c : Instr) (s : State) (b : Byte) :
    finishCommit c (s.setLc b) = (finishCommit c s).setLc b := by
  rw [finishCommit_eq, finishCommit_eq]
  rfl

/-- An intensity command changes the duty level, or does not, whatever LC holds. -/
theorem ite_setDuty_setLc (edge : Bool) (d : Duty) (s : State) (b : Byte) :
    (if edge then setDuty d (s.setLc b) else s.setLc b) = (if edge then setDuty d s else s).setLc b := by
  cases edge with
  | true => rfl
  | false => rfl

theorem exec_setLc_of_isMovement {i : Instr} {s t : State} (hi : isMovement i = true) (h : exec i s = .next t)
    (b : Byte) : exec i (s.setLc b) = .next (t.setLc (if s.cfg.moveClears then noneByte else b)) := by
  obtain ⟨f, k, hexec⟩ := exec_movement hi
  rw [hexec] at h ⊢
  cases h
  rfl

theorem exec_intensityUp_setLc {s t : State} (h : exec .intensityUp s = .next t) (b : Byte) :
    exec .intensityUp (s.setLc b) = .next (t.setLc b) := by
  cases h
  rw [← finishCommit_setLc]
  exact congrArg (fun e => Host.Outcome.next (finishCommit .intensityUp (e.setCi (incCnt s.cfg s.ci))))
    (ite_setDuty_setLc (upEdge s) (dutyUp s.dl) s b)

theorem exec_intensityDown_setLc {s t : State} (h : exec .intensityDown s = .next t) (b : Byte) :
    exec .intensityDown (s.setLc b) = .next (t.setLc b) := by
  cases h
  rw [← finishCommit_setLc]
  exact congrArg (fun e => Host.Outcome.next (finishCommit .intensityDown (e.setCd (incCnt s.cfg s.cd))))
    (ite_setDuty_setLc (downEdge s) (dutyDown s.dl) s b)

/-- A COMMIT does the same whatever LC holds, but for LC itself: a command that clears LC leaves the none value (R55), any other
leaves the byte that was there. -/
theorem exec_setLc {i : Instr} {s t : State} (h : exec i s = .next t) (b : Byte) :
    exec i (s.setLc b) = .next (t.setLc (if commitClearsLc s.cfg i then noneByte else b)) := by
  cases i with
  | forward | backward | toggleLow | toggleHigh => exact exec_setLc_of_isMovement rfl h b
  | intensityUp => exact exec_intensityUp_setLc h b
  | intensityDown => exact exec_intensityDown_setLc h b
  | defaultCmd c =>
    cases h
    rfl

/-! ### The steps of CTRL and DLY -/

/-- A legal machine whose own move comes next takes the step that PH enables (R20). -/
theorem step_own {s : State} (hwf : s.cfg.wf = true) (hown : nextMove s.sched = .own) :
    step s = ownStep (s.setSched s.sched.tail) := by
  rw [step_of_wf hwf, hown, takeMove]

theorem ownStep_sample {s : State} (h : s.ph = .sample) : ownStep s = .next (sampleCommand s) := by
  rw [ownStep, h]

theorem ownStep_commit {s : State} (h : s.ph = .commit) : ownStep s = exec (sampledInstr s) s := by
  rw [ownStep, h]

theorem ownStep_delay {s : State} (h : s.ph = .delay) : ownStep s = .next (delayDone s) := by
  rw [ownStep, h]

/-- Outside SAMPLE the block's own step does the same whatever LC holds, but for LC itself (R101). -/
theorem ownStep_setLc {s t : State} (hph : s.ph ≠ .sample) (h : ownStep s = .next t) (b : Byte) :
    ∃ v, ownStep (s.setLc b) = .next (t.setLc v) := by
  cases hp : s.ph with
  | sample => exact absurd hp hph
  | commit =>
    rw [ownStep_commit hp] at h
    rw [ownStep_commit (s := s.setLc b) hp]
    exact ⟨_, exec_setLc h b⟩
  | delay =>
    rw [ownStep_delay hp] at h
    rw [ownStep_delay (s := s.setLc b) hp]
    cases h
    exact ⟨b, rfl⟩

/-! ### The statements -/

/-- Settles O6: SAMPLE by its own equation, the other two steps by `ownStep_setLc`. -/
theorem sampleIsTheOneReadOfLatestCommand : Obligations.SampleIsTheOneReadOfLatestCommand := by
  refine ⟨fun s hwf hph hown => ?_, fun s t b hph hown h => ?_⟩
  · calc step s = ownStep (s.setSched s.sched.tail) := step_own hwf hown
      _ = .next (sampleCommand (s.setSched s.sched.tail)) := ownStep_sample hph
      _ = .next { s with sc := s.lc, ph := .commit, sched := s.sched.tail } :=
        congrArg Host.Outcome.next (sampleCommand_eq (s.setSched s.sched.tail))
  · obtain ⟨hwf, -⟩ := step_cases h
    rw [step_own hwf hown] at h
    obtain ⟨v, hv⟩ := ownStep_setLc (s := s.setSched s.sched.tail) hph h b
    exact ⟨t.setLc v, (step_own (s := s.setLc b) hwf hown).trans hv, rfl⟩

/-- Settles O32: the post-dispatch reset is part of the finish every COMMIT ends with. -/
theorem postDispatchClearsCounters : Obligations.PostDispatchClearsCounters := by
  intro i s t h
  obtain ⟨u, es, hexec, -, -⟩ := exec_eq_finishCommit i s
  rw [hexec, finishCommit_eq] at h
  cases h
  exact ⟨fun hi => by simp [isUp_eq_false hi], fun hi => by simp [isDown_eq_false hi]⟩

/-- Settles O33: the phase update is part of that finish, and the one place that asks for a pause. -/
theorem phaseAfterCommit : Obligations.PhaseAfterCommit := by
  intro i s t h
  obtain ⟨u, es, hexec, htrace, hes⟩ := exec_eq_finishCommit i s
  rw [hexec, finishCommit_eq] at h
  cases h
  refine ⟨es ++ (if isMovement i then [.delayReq] else []), by rw [htrace, List.append_assoc], ?_⟩
  rw [← isMovement_iff]
  cases isMovement i with
  | true => simp
  | false => simp [hes]

/-- Settles O47: an RX step in a pause is an RX step in any phase (`rxWritesLatestCommandOnly`), and of the four kinds of step
SAMPLE and COMMIT ask for another phase. -/
theorem pauseHoldsController : Obligations.PauseHoldsController := by
  refine ⟨fun s b rest hwf _ => rxWritesLatestCommandOnly { s with sched := .rx b :: rest } b rest hwf rfl, ?_⟩
  intro s t hph h
  obtain ⟨-, ⟨b, hrx, rfl⟩ | ⟨-, hsample, -⟩ | ⟨-, hcommit, -⟩ | ⟨hown, -, rfl⟩⟩ := step_cases h
  · exact .inl ⟨b, hrx, rfl⟩
  · cases hph.symm.trans hsample
  · cases hph.symm.trans hcommit
  · exact .inr ⟨hown, rfl⟩

end Sys2Proof.Machine
end

section
/-! PROOF. The statement about `spec/41_pattern_commands.md`: FORWARD (R120). What its row of the decode table and its OS
pattern say is put in the statement's terms first; the rest of its COMMIT is `execForward_eq`. -/

namespace Sys2Proof.Machine

/-- The byte of FORWARD stands first in R73, before any row that reads `CMD_MAP` (R74). -/
theorem decode_forward_byte (m : CmdMap) : decode m 0x46#8 = .forward :=
  if_pos rfl

/-- R120 as arithmetic: below 128 the highest bit is clear, so the shift drops nothing and doubles the value. -/
theorem forwardOs_toNat (os : Byte) :
    (forwardOs os).toNat = if 128 ≤ os.toNat then 1 else 2 * os.toNat := by
  rw [forwardOs]
  split
  case isTrue => rfl
  case isFalse hlow =>
    have hfits : os.toNat * 2 ^ 1 < 2 ^ 8 := by omega
    calc (os <<< 1).toNat = os.toNat * 2 ^ 1 % 2 ^ 8 := by rw [BitVec.toNat_shiftLeft, Nat.shiftLeft_eq]
      _ = os.toNat * 2 ^ 1 := Nat.mod_eq_of_lt hfits
      _ = 2 * os.toNat := Nat.mul_comm _ _

/-- Settles O24: the byte by `decode_forward_byte`, the new OS by `forwardOs_toNat`; `execForward_eq` gives the completion and
every other field. -/
theorem forwardResult : Obligations.ForwardResult := by
  refine ⟨decode_forward_byte, fun s => ⟨_, [.status .frente, .delayReq], execForward_eq s, forwardOs_toNat s.os, ?_⟩⟩
  exact ⟨rfl, rfl, rfl, rfl, List.Perm.refl _, rfl, rfl, rfl, rfl, rfl, rfl⟩

end Sys2Proof.Machine
end

section
/-! PROOF. The statement about `spec/43_default_command.md`: DEFAULT (R170). The last row of the decode table is reached by
failing the six before it; the COMMIT itself is `execDefault_eq`. -/

namespace Sys2Proof.Machine

/-- A byte that R72 does not list fails every row of R73 but the last, under every `CMD_MAP`: the map chooses the command of a
listed byte only (R74, R75). -/
theorem decode_of_not_listed (m : CmdMap) {b : Byte}
    (hb : b ∉ [0x46#8, 0x41#8, 0x44#8, 0x45#8, 0x50#8, 0x4C#8]) : decode m b = .defaultCmd b := by
  simp only [List.mem_cons, List.not_mem_nil, or_false, not_or] at hb
  obtain ⟨hF, hA, hD, hE, hP, hL⟩ := hb
  rw [decode, if_neg hF, if_neg hA, if_neg hD, if_neg hE, if_neg hP, if_neg hL]

/-- The byte kept by the constructor selects nothing further: every DEFAULT is dispatched to the one meaning (R103). -/
theorem exec_defaultCmd (b : Byte) (s : State) : exec (.defaultCmd b) s = execDefault b s := rfl

/-- Settles O30: the bytes by `decode_of_not_listed`; the completion, the cleared registers and the frame by
`execDefault_eq`, where the none value is 0x00 (R22). -/
theorem defaultResult : Obligations.DefaultResult := by
  refine ⟨fun m _ hb => decode_of_not_listed m hb, fun b s => ?_⟩
  calc exec (.defaultCmd b) s = execDefault b s := exec_defaultCmd b s
    _ = .next { s with lc := noneByte, ci := 0, cd := 0, ph := .sample } := execDefault_eq b s
    _ = .next { s with lc := 0x00#8, ci := 0, cd := 0, ph := .sample } := by rw [noneByte]

end Sys2Proof.Machine
end

section
/-! PROOF. The statement about `spec/60_exceptions.md`: no fault and no partiality (R200). Completion is said once for each layer
of a step: the command, the step that PH enables, the move, the step of a legal machine. -/

namespace Sys2Proof.Machine

/-- There are no exception cause codes (R200): the type of faults has no constructor. -/
theorem no_fault (r : Fault) : False := by
  cases r

/-- Every command completes in every state: its COMMIT ends with `finishCommit`, which cannot fail. -/
theorem exec_completes (i : Instr) (s : State) : ∃ t, exec i s = .next t := by
  obtain ⟨u, _, hexec, -, -⟩ := exec_eq_finishCommit i s
  exact ⟨finishCommit i u, hexec⟩

/-- Every phase enables a step of CTRL or DLY (R20), and that step completes. -/
theorem ownStep_completes (s : State) : ∃ t, ownStep s = .next t := by
  cases hph : s.ph with
  | sample => exact ⟨_, ownStep_sample hph⟩
  | commit =>
    rw [ownStep_commit hph]
    exact exec_completes (sampledInstr s) s
  | delay => exact ⟨_, ownStep_delay hph⟩

/-- Every move completes: an RX step writes LC in every phase (R53). -/
theorem takeMove_completes (m : Move) (s : State) : ∃ t, takeMove m s = .next t := by
  cases m with
  | rx b => exact ⟨_, takeMove_rx b s⟩
  | own => exact ownStep_completes s

/-- A legal machine always has a next state: its step is a move, and only the check of the configuration refuses. -/
theorem step_completes {s : State} (hwf : s.cfg.wf = true) : ∃ t, step s = .next t := by
  rw [step_of_wf hwf]
  exact takeMove_completes _ _

/-- Settles O9, layer by layer. -/
theorem blockIsTotal : Obligations.BlockIsTotal :=
  ⟨no_fault, exec_completes, fun _ hwf => step_completes hwf⟩

end Sys2Proof.Machine
end

section
/-! PROOF. The statements about `spec/30_encoding.md`: the decoder and the encoder (R70 to R76). A legal `CMD_MAP` lists each of
its four commands exactly once; that is what makes decode and encode inverse to each other, and everything else here follows
from the two round trips. -/

namespace Sys2Proof

/-! ### A legal `CMD_MAP` -/

/-- The commands that `CMD_MAP` gives to `A`, `D`, `E` and `L`, in this order (R8). -/
def CmdMap.letters (m : CmdMap) : List LetterCmd :=
  [m.a, m.d, m.e, m.l]

/-- A legal map is one-to-one (R8). -/
theorem CmdMap.wf_iff (m : CmdMap) : m.wf = true ↔ m.letters.Nodup := by
  simp [CmdMap.wf, CmdMap.letters, and_assoc]

/-- The four commands that `CMD_MAP` distributes (R8). -/
def LetterCmd.all : List LetterCmd :=
  [.backward, .toggleLow, .toggleHigh, .intensityDown]

theorem LetterCmd.mem_all (c : LetterCmd) : c ∈ LetterCmd.all := by
  cases c <;> decide

/-- A one-to-one map of four letters reaches all four commands (R8). -/
theorem CmdMap.mem_letters {m : CmdMap} (hm : m.wf = true) (c : LetterCmd) : c ∈ m.letters := by
  have hsub : m.letters.Subperm LetterCmd.all :=
    (m.wf_iff.mp hm).subperm fun d _ => d.mem_all
  have hperm : m.letters.Perm LetterCmd.all := hsub.perm_of_length_le (Nat.le_refl 4)
  exact hperm.mem_iff.mpr c.mem_all

/-! ### The rows of R73 -/

@[simp] theorem decode_A (m : CmdMap) : decode m 0x41#8 = m.a.instr := rfl
@[simp] theorem decode_D (m : CmdMap) : decode m 0x44#8 = m.d.instr := rfl
@[simp] theorem decode_E (m : CmdMap) : decode m 0x45#8 = m.e.instr := rfl
@[simp] theorem decode_P (m : CmdMap) : decode m 0x50#8 = .intensityUp := rfl
@[simp] theorem decode_L (m : CmdMap) : decode m 0x4C#8 = m.l.instr := rfl

@[simp] theorem LetterCmd.instr_wf (c : LetterCmd) : c.instr.wf = true := by
  cases c <;> rfl

@[simp] theorem encode_instr (m : CmdMap) (c : LetterCmd) : encode m c.instr = letterFor m c := by
  cases c <;> rfl

/-- The two ways to say that R72 does not list a byte. -/
theorem isCommandByte_eq_false_iff (b : Byte) :
    isCommandByte b = false ↔ b ∉ [0x46#8, 0x41#8, 0x44#8, 0x45#8, 0x50#8, 0x4C#8] := by
  simp [isCommandByte, and_assoc]

/-- Each letter is the byte of the command it selects: the search of `letterFor` stops at it, since no letter before it selects
the same command. -/
theorem letterFor_letters {m : CmdMap} (hm : m.wf = true) :
    letterFor m m.a = 0x41#8 ∧ letterFor m m.d = 0x44#8 ∧ letterFor m m.e = 0x45#8 ∧ letterFor m m.l = 0x4C#8 := by
  have hnodup : [m.a, m.d, m.e, m.l].Nodup := m.wf_iff.mp hm
  simp only [List.nodup_cons, List.mem_cons, List.not_mem_nil, or_false, not_or] at hnodup
  obtain ⟨⟨had, hae, hal⟩, ⟨hde, hdl⟩, hel, -⟩ := hnodup
  simp [letterFor, had, hae, hal, hde, hdl, hel]

/-! ### The two round trips -/

/-- The letter found for a command selects it (R8). -/
theorem decode_letterFor {m : CmdMap} (hm : m.wf = true) (c : LetterCmd) : decode m (letterFor m c) = c.instr := by
  obtain ⟨ha, hd, he, hl⟩ := letterFor_letters hm
  have hc : c = m.a ∨ c = m.d ∨ c = m.e ∨ c = m.l := by simpa [CmdMap.letters] using CmdMap.mem_letters hm c
  obtain rfl | rfl | rfl | rfl := hc
  · rw [ha, decode_A]
  · rw [hd, decode_D]
  · rw [he, decode_E]
  · rw [hl, decode_L]

/-- Settles O2: the four letters by `decode_letterFor`; F and P have rows of their own, and the byte of a well-formed DEFAULT
has none. -/
theorem decodeEncodeRoundTrip : Obligations.DecodeEncodeRoundTrip := by
  intro m i hm hi
  cases i with
  | forward => exact Machine.decode_forward_byte m
  | intensityUp => exact decode_P m
  | backward => exact decode_letterFor hm .backward
  | toggleLow => exact decode_letterFor hm .toggleLow
  | toggleHigh => exact decode_letterFor hm .toggleHigh
  | intensityDown => exact decode_letterFor hm .intensityDown
  | defaultCmd b =>
    have hb : isCommandByte b = false := by simpa [Instr.wf] using hi
    exact Machine.decode_of_not_listed m ((isCommandByte_eq_false_iff b).mp hb)

/-- Settles O3, row by row: the byte of a row is the encoding of the row's command. -/
theorem encodeDecodeRoundTrip : Obligations.EncodeDecodeRoundTrip := by
  intro m b hm
  obtain ⟨ha, hd, he, hl⟩ := letterFor_letters hm
  by_cases hb : b ∈ [0x46#8, 0x41#8, 0x44#8, 0x45#8, 0x50#8, 0x4C#8]
  · simp only [List.mem_cons, List.not_mem_nil, or_false] at hb
    obtain rfl | rfl | rfl | rfl | rfl | rfl := hb
    · exact ⟨rfl, rfl⟩
    · simp [ha]
    · simp [hd]
    · simp [he]
    · exact ⟨rfl, rfl⟩
    · simp [hl]
  · rw [Machine.decode_of_not_listed m hb]
    exact ⟨by simpa [Instr.wf] using (isCommandByte_eq_false_iff b).mpr hb, rfl⟩

/-! ### How many bytes select a command -/

/-- Under a legal map the bytes that select a well-formed command are its encoding alone. -/
theorem decode_eq_iff {m : CmdMap} (hm : m.wf = true) {i : Instr} (hi : i.wf = true) (b : Byte) :
    decode m b = i ↔ b = encode m i := by
  constructor
  · rintro rfl
    exact (encodeDecodeRoundTrip m b hm).2.symm
  · rintro rfl
    exact decodeEncodeRoundTrip m i hm hi

/-- DEFAULT is selected exactly by the bytes that R72 does not list (R75). -/
theorem decode_eq_defaultCmd_iff {m : CmdMap} (hm : m.wf = true) (b : Byte) :
    decode m b = .defaultCmd b ↔ isCommandByte b = false := by
  constructor
  · intro h
    have hwf : (Instr.defaultCmd b).wf = true := h ▸ (encodeDecodeRoundTrip m b hm).1
    simpa [Instr.wf] using hwf
  · intro h
    exact Machine.decode_of_not_listed m ((isCommandByte_eq_false_iff b).mp h)

/-- Each byte has one number below 256. -/
theorem length_filter_ofNat_eq (b : Byte) :
    ((List.range 256).filter fun n => decide (BitVec.ofNat 8 n = b)).length = 1 := by
  have heq : ∀ n ∈ List.range 256, decide (BitVec.ofNat 8 n = b) = (n == b.toNat) := by
    intro n hn
    have hlt : n < 256 := List.mem_range.mp hn
    have : BitVec.ofNat 8 n = b ↔ n = b.toNat := by bv_omega
    simp only [this, beq_eq_decide]
  rw [List.filter_congr heq, ← List.countP_eq_length_filter]
  exact List.count_eq_one_of_mem List.nodup_range (List.mem_range.mpr b.isLt)

/-- The six bytes of R72 among the numbers below 256. -/
theorem filter_isCommandByte_perm :
    ((List.range 256).filter fun n => isCommandByte (BitVec.ofNat 8 n)).Perm [0x46, 0x41, 0x44, 0x45, 0x50, 0x4C] := by
  refine (List.perm_ext_iff_of_nodup (List.nodup_range.filter _) (by decide)).mpr fun n => ?_
  simp only [List.mem_filter, List.mem_range, isCommandByte, Bool.or_eq_true, beq_iff_eq, List.mem_cons,
    List.not_mem_nil, or_false]
  bv_omega

/-- R72 lists six bytes, so 250 are left (R75). -/
theorem length_filter_not_isCommandByte :
    ((List.range 256).filter fun n => !isCommandByte (BitVec.ofNat 8 n)).length = 250 := by
  have hsplit := List.length_eq_length_filter_add (l := List.range 256) fun n => isCommandByte (BitVec.ofNat 8 n)
  rw [filter_isCommandByte_perm.length_eq, List.length_range] at hsplit
  simp only [List.length_cons, List.length_nil] at hsplit
  omega

/-- Settles O4: DEFAULT by counting the bytes that R72 does not list, the others because each has one encoding. -/
theorem defaultBytesAre250 : Obligations.DefaultBytesAre250 := by
  intro m hm
  refine ⟨?_, fun b hb => ?_, fun i hi => ?_⟩
  · simp only [decode_eq_defaultCmd_iff hm, Bool.decide_eq_false]
    exact length_filter_not_isCommandByte
  · have hlower : ∀ b ∈ [0x66#8, 0x61#8, 0x64#8, 0x65#8, 0x70#8, 0x6C#8], isCommandByte b = false := by decide
    exact (decode_eq_defaultCmd_iff hm b).mpr (hlower b hb)
  · have hwf : ∀ i ∈ [Instr.forward, .backward, .toggleLow, .toggleHigh, .intensityUp, .intensityDown],
        i.wf = true := by decide
    simp only [decode_eq_iff hm (hwf i hi)]
    exact length_filter_ofNat_eq (encode m i)

/-- Settles O1: the rows of R73 at the default map; a byte outside R72 falls through to DEFAULT. -/
theorem decodeTableWords : Obligations.DecodeTableWords := by
  refine ⟨rfl, decode_A _, decode_D _, decode_E _, decode_P _, decode_L _, ?_, rfl, rfl⟩
  exact Machine.decode_of_not_listed _ (by decide)

end Sys2Proof
end

section
/-! PROOF. The statements about the ranges of the parameters, `spec/00_scope.md` R6 to R8 and `spec/70_reset_and_hazards.md`
R255: what a legal configuration is, written out, and that `step` refuses exactly the others. -/

namespace Sys2Proof

/-- A legal configuration, range by range (R6, R7, R8). -/
theorem Config.wf_iff (c : Config) :
    c.wf = true ↔ 1 ≤ c.scale ∧ c.scale ≤ 25 ∧ 1 ≤ c.cntW ∧ c.cmdMap.letters.Nodup := by
  simp only [Config.wf, Config.scaleOk, Config.cntWOk, Bool.and_eq_true, decide_eq_true_eq, CmdMap.wf_iff, and_assoc]

theorem Config.scale_pos {c : Config} (h : c.wf = true) : 1 ≤ c.scale := by
  obtain ⟨hpos, -⟩ := c.wf_iff.mp h
  exact hpos

theorem Config.scale_le {c : Config} (h : c.wf = true) : c.scale ≤ 25 := by
  obtain ⟨-, hle, -⟩ := c.wf_iff.mp h
  exact hle

theorem Config.cntMax_pos {c : Config} (h : c.wf = true) : 1 ≤ c.cntMax := by
  obtain ⟨-, -, hwidth, -⟩ := c.wf_iff.mp h
  exact Machine.cntMax_pos hwidth

namespace Machine

/-- `step` refuses exactly the machines whose configuration is illegal, and for that reason alone. -/
theorem step_refused_iff (s : State) (r : Refusal) :
    step s = .refused r ↔ r = .illegalConfiguration ∧ ¬s.cfg.wf = true := by
  by_cases hwf : s.cfg.wf = true
  · obtain ⟨t, ht⟩ := step_completes hwf
    simp [ht, hwf]
  · rw [step_of_not_wf (Bool.eq_false_iff.mpr hwf)]
    simp [hwf, eq_comm]

/-- Settles O10: the integer bound by arithmetic, the refusal because such a `SCALE` is outside R6. -/
theorem illegalScaleRefused : Obligations.IllegalScaleRefused := by
  refine ⟨fun c hc => by omega, fun s hscale => (step_refused_iff s _).mpr ⟨rfl, fun hwf => ?_⟩⟩
  have hpos := Config.scale_pos hwf
  have hle := Config.scale_le hwf
  omega

/-- Settles O11: `step_refused_iff` with the legality written out. -/
theorem refusesOnlyIllegalConfigurations : Obligations.RefusesOnlyIllegalConfigurations := by
  intro s r
  rw [step_refused_iff, Config.wf_iff]
  rfl

end Machine
end Sys2Proof
end

section
/-! PROOF. What a COMMIT does to each field of the state, for every command at once: `afterCommit` names the state it leaves,
and `exec_eq_afterCommit` ties it to `exec`. The proofs below read a field off it and do not run a command again. -/

namespace Sys2Proof.Machine

/-- OS after the COMMIT of a command (R120 to R126); only a movement command writes it (R23). -/
def commitOs (cfg : Config) (i : Instr) (os : Byte) : Byte :=
  match i with
  | .forward => forwardOs os
  | .backward => backwardOs cfg.bwdMode os
  | .toggleLow => toggleLowOs os
  | .toggleHigh => toggleHighOs os
  | .intensityUp => os
  | .intensityDown => os
  | .defaultCmd _ => os

/-- Whether the COMMIT of a command is an edge: an intensity command whose own counter is 0 (R141, R143). -/
def isEdge (i : Instr) (s : State) : Bool :=
  match i with
  | .forward => false
  | .backward => false
  | .toggleLow => false
  | .toggleHigh => false
  | .intensityUp => s.ci == 0
  | .intensityDown => s.cd == 0
  | .defaultCmd _ => false

/-- The duty level that an edge of a command makes of the old one (R141, R143). -/
def edgeDuty (i : Instr) (d : Duty) : Duty :=
  match i with
  | .forward => d
  | .backward => d
  | .toggleLow => d
  | .toggleHigh => d
  | .intensityUp => dutyUp d
  | .intensityDown => dutyDown d
  | .defaultCmd _ => d

/-- The two events of an edge that makes the duty level `d`, in the order of D11. -/
def edgeEvents (cfg : Config) (d : Duty) : List Event :=
  [.setReload (reloadOf cfg d), .status (.duty (percent d))]

/-- The events of a COMMIT, in the order of D11. -/
def commitEvents (i : Instr) (s : State) : List Event :=
  match i with
  | .forward => [.status .frente, .delayReq]
  | .backward => [.status .atras, .delayReq]
  | .toggleLow => [.status .piscaMenos, .delayReq]
  | .toggleHigh => [.status .piscaMais, .delayReq]
  | .intensityUp => if isEdge .intensityUp s then edgeEvents s.cfg (dutyUp s.dl) else []
  | .intensityDown => if isEdge .intensityDown s then edgeEvents s.cfg (dutyDown s.dl) else []
  | .defaultCmd _ => []

/-- The state that the COMMIT of a command leaves (R102), field by field. -/
def afterCommit (i : Instr) (s : State) : State :=
  { s with
    lc := if commitClearsLc s.cfg i then noneByte else s.lc
    os := commitOs s.cfg i s.os
    dl := if isEdge i s then edgeDuty i s.dl else s.dl
    tr := if isEdge i s then reloadOf s.cfg (edgeDuty i s.dl) else s.tr
    ci := if isUp i then incCnt s.cfg s.ci else 0
    cd := if isDown i then incCnt s.cfg s.cd else 0
    ph := if isMovement i then .delay else .sample
    trace := s.trace ++ commitEvents i s }

/-- The COMMIT of every command completes and leaves `afterCommit`. -/
theorem exec_eq_afterCommit (i : Instr) (s : State) : exec i s = .next (afterCommit i s) := by
  cases i with
  | forward => exact execForward_eq s
  | backward => exact execBackward_eq s
  | toggleLow => exact execToggleLow_eq s
  | toggleHigh => exact execToggleHigh_eq s
  | intensityUp =>
    change execIntensityUp s = _
    by_cases h : s.ci = 0
    · rw [execIntensityUp_edge h]
      simp [afterCommit, commitEvents, commitOs, edgeEvents, edgeDuty, isEdge, h, commitClearsLc, isUp, isDown, isMovement]
    · rw [execIntensityUp_held h]
      simp [afterCommit, commitEvents, commitOs, isEdge, h, commitClearsLc, isUp, isDown, isMovement]
  | intensityDown =>
    change execIntensityDown s = _
    by_cases h : s.cd = 0
    · rw [execIntensityDown_edge h]
      simp [afterCommit, commitEvents, commitOs, edgeEvents, edgeDuty, isEdge, h, commitClearsLc, isUp, isDown, isMovement]
    · rw [execIntensityDown_held h]
      simp [afterCommit, commitEvents, commitOs, isEdge, h, commitClearsLc, isUp, isDown, isMovement]
  | defaultCmd b =>
    rw [exec_defaultCmd, execDefault_eq]
    simp [afterCommit, commitEvents, commitOs, isEdge, commitClearsLc, isUp, isDown, isMovement]

/-- A COMMIT has one outcome. -/
theorem eq_afterCommit {i : Instr} {s t : State} (h : exec i s = .next t) : t = afterCommit i s :=
  Host.Outcome.next.inj (h.symm.trans (exec_eq_afterCommit i s))

/-! ### One lemma per field -/

@[simp] theorem afterCommit_lc (i : Instr) (s : State) :
    (afterCommit i s).lc = if commitClearsLc s.cfg i then noneByte else s.lc := rfl
@[simp] theorem afterCommit_os (i : Instr) (s : State) : (afterCommit i s).os = commitOs s.cfg i s.os := rfl
@[simp] theorem afterCommit_dl (i : Instr) (s : State) :
    (afterCommit i s).dl = if isEdge i s then edgeDuty i s.dl else s.dl := rfl
@[simp] theorem afterCommit_tr (i : Instr) (s : State) :
    (afterCommit i s).tr = if isEdge i s then reloadOf s.cfg (edgeDuty i s.dl) else s.tr := rfl
@[simp] theorem afterCommit_ci (i : Instr) (s : State) :
    (afterCommit i s).ci = if isUp i then incCnt s.cfg s.ci else 0 := rfl
@[simp] theorem afterCommit_cd (i : Instr) (s : State) :
    (afterCommit i s).cd = if isDown i then incCnt s.cfg s.cd else 0 := rfl
@[simp] theorem afterCommit_sc (i : Instr) (s : State) : (afterCommit i s).sc = s.sc := rfl
@[simp] theorem afterCommit_ph (i : Instr) (s : State) :
    (afterCommit i s).ph = if isMovement i then .delay else .sample := rfl
@[simp] theorem afterCommit_trace (i : Instr) (s : State) : (afterCommit i s).trace = s.trace ++ commitEvents i s := rfl
@[simp] theorem afterCommit_cfg (i : Instr) (s : State) : (afterCommit i s).cfg = s.cfg := rfl
@[simp] theorem afterCommit_sched (i : Instr) (s : State) : (afterCommit i s).sched = s.sched := rfl

/-- A COMMIT neither reads nor writes the moves still to come. -/
theorem afterCommit_setSched (i : Instr) (s : State) (v : List Move) :
    afterCommit i (s.setSched v) = (afterCommit i s).setSched v := by
  cases i <;> rfl

/-! ### Edges -/

theorem isEdge_iff (i : Instr) (s : State) :
    isEdge i s = true ↔ i = .intensityUp ∧ s.ci = 0 ∨ i = .intensityDown ∧ s.cd = 0 := by
  cases i <;> simp [isEdge]

/-- Off an edge a command that is no movement emits nothing, and on an edge exactly the two events of the new duty level. -/
theorem commitEvents_of_not_movement {i : Instr} (hi : isMovement i = false) (s : State) :
    commitEvents i s = if isEdge i s then edgeEvents s.cfg (edgeDuty i s.dl) else [] := by
  cases i with
  | intensityUp | intensityDown | defaultCmd _ => rfl
  | forward | backward | toggleLow | toggleHigh => cases hi

/-- A movement command emits its status and asks for its pause, whatever the state (R128, R107). -/
theorem commitEvents_of_movement {i : Instr} (hi : isMovement i = true) :
    ∃ k, isMoveStatus k = true ∧ ∀ s, commitEvents i s = [.status k, .delayReq] := by
  cases i with
  | forward => exact ⟨.frente, rfl, fun _ => rfl⟩
  | backward => exact ⟨.atras, rfl, fun _ => rfl⟩
  | toggleLow => exact ⟨.piscaMenos, rfl, fun _ => rfl⟩
  | toggleHigh => exact ⟨.piscaMais, rfl, fun _ => rfl⟩
  | intensityUp | intensityDown | defaultCmd _ => cases hi

/-- No movement command is an edge. -/
theorem isEdge_of_movement {i : Instr} (hi : isMovement i = true) (s : State) : isEdge i s = false := by
  cases i with
  | forward | backward | toggleLow | toggleHigh => rfl
  | intensityUp | intensityDown | defaultCmd _ => cases hi

end Sys2Proof.Machine
end

section
/-! PROOF. The statements about the agents' steps: `spec/10_state.md` R20, `spec/40_iteration.md` R102, R109 and R115, and the
scripts of `spec/30_encoding.md` R77. Each kind of step gets one equation; an iteration is the chain of its steps. -/

namespace Sys2Proof.Machine

/-! ### One step -/

/-- Settles O5. -/
theorem stepRunsDecodedInstruction : Obligations.StepRunsDecodedInstruction := by
  intro s hwf hph hown
  calc step s = ownStep (s.setSched s.sched.tail) := step_own hwf hown
    _ = exec (decode s.cfg.cmdMap s.sc) { s with sched := s.sched.tail } := ownStep_commit hph

/-- Settles O7. -/
theorem delayDoneReturnsToSample : Obligations.DelayDoneReturnsToSample := by
  intro s hwf hph hown
  calc step s = ownStep (s.setSched s.sched.tail) := step_own hwf hown
    _ = .next { s with ph := .sample, sched := s.sched.tail } := ownStep_delay hph

/-- The SAMPLE step: the first clause of `sampleIsTheOneReadOfLatestCommand`, in the model's own update. -/
theorem step_sample {s : State} (hwf : s.cfg.wf = true) (hph : s.ph = .sample) (hown : nextMove s.sched = .own) :
    step s = .next ((sampleCommand s).setSched s.sched.tail) :=
  sampleIsTheOneReadOfLatestCommand.1 s hwf hph hown

/-- The COMMIT step. -/
theorem step_commit {s : State} (hwf : s.cfg.wf = true) (hph : s.ph = .commit) (hown : nextMove s.sched = .own) :
    step s = .next ((afterCommit (sampledInstr s) s).setSched s.sched.tail) := by
  rw [stepRunsDecodedInstruction s hwf hph hown, exec_eq_afterCommit]
  exact congrArg Host.Outcome.next (afterCommit_setSched _ _ _)

/-- The end of a pause, in the model's own update. -/
theorem step_delay {s : State} (hwf : s.cfg.wf = true) (hph : s.ph = .delay) (hown : nextMove s.sched = .own) :
    step s = .next ((s.setPh .sample).setSched s.sched.tail) :=
  delayDoneReturnsToSample s hwf hph hown

/-- The RX step, whatever moves come behind it (R53). -/
theorem step_rx {s : State} {b : Byte} (hwf : s.cfg.wf = true) (hrx : nextMove s.sched = .rx b) :
    step s = .next ((s.setLc b).setSched s.sched.tail) := by
  rw [step_of_wf hwf, hrx, takeMove_rx]
  rfl

/-- A move does the same whatever moves are to come after it, but for those moves. -/
theorem takeMove_setSched {m : Move} {s t : State} (h : takeMove m s = .next t) (v : List Move) :
    takeMove m (s.setSched v) = .next (t.setSched v) := by
  cases m with
  | rx b =>
    cases h
    rfl
  | own =>
    rw [takeMove] at h ⊢
    cases hph : s.ph with
    | sample =>
      rw [ownStep_sample hph] at h
      rw [ownStep_sample (s := s.setSched v) hph]
      cases h
      rfl
    | commit =>
      rw [ownStep_commit hph] at h
      rw [ownStep_commit (s := s.setSched v) hph, exec_eq_afterCommit, eq_afterCommit h]
      exact congrArg Host.Outcome.next (afterCommit_setSched _ _ _)
    | delay =>
      rw [ownStep_delay hph] at h
      rw [ownStep_delay (s := s.setSched v) hph]
      cases h
      rfl

/-! ### RX and COMMIT -/

/-- Settles O12: `exec_setLc` says what a COMMIT does under another LC, `afterCommit_lc` what it leaves in LC. -/
theorem rxCommutesWithCommit : Obligations.RxCommutesWithCommit := by
  intro i s b
  have hrx := exec_setLc (exec_eq_afterCommit i s) b
  refine ⟨_, exec_eq_afterCommit i s, fun hkeep => ?_, fun hclear => ?_⟩
  · rw [hkeep] at hrx
    exact ⟨by simp [hkeep], hrx⟩
  · have hlc : (afterCommit i s).lc = noneByte := by simp [hclear]
    rw [hclear, if_pos rfl, ← hlc] at hrx
    exact ⟨hlc, hrx⟩

/-! ### The actions of a script -/

/-- The move by which `step` takes an action (R20). -/
def actionMove : Action → Move
  | .reset => .own
  | .rx b => .rx b
  | .sample => .own
  | .commit => .own
  | .delayDone => .own

/-- The action that a move takes in a phase (R20). -/
def moveAction (m : Move) (ph : Phase) : Action :=
  match m, ph with
  | .rx b, _ => .rx b
  | .own, .sample => .sample
  | .own, .commit => .commit
  | .own, .delay => .delayDone

/-- An enabled action of an agent does what its move does. -/
theorem act_eq_takeMove {a : Action} {s : State} (ha : a ≠ .reset) (hen : actionEnabled a s = true) :
    act a s = takeMove (actionMove a) s := by
  cases a with
  | reset => exact absurd rfl ha
  | rx b => rfl
  | sample => exact (ownStep_sample (by simpa [actionEnabled] using hen)).symm
  | commit => exact (ownStep_commit (by simpa [actionEnabled] using hen)).symm
  | delayDone => exact (ownStep_delay (by simpa [actionEnabled] using hen)).symm

/-- Every move is an enabled action of an agent. -/
theorem moveAction_enabled (m : Move) (s : State) :
    moveAction m s.ph ≠ .reset ∧ actionEnabled (moveAction m s.ph) s = true ∧ actionMove (moveAction m s.ph) = m := by
  cases m with
  | rx b => exact ⟨by simp [moveAction], rfl, rfl⟩
  | own => cases hph : s.ph <;> simp [moveAction, actionEnabled, actionMove, hph]

/-- A legal machine with a move listed takes it. -/
theorem step_cons {s : State} (hwf : s.cfg.wf = true) (m : Move) (rest : List Move) :
    step { s with sched := m :: rest } = takeMove m (s.setSched rest) :=
  step_of_wf (s := { s with sched := m :: rest }) hwf

/-- Settles O13: an enabled action is its move, and `takeMove_setSched` carries it to any list of further moves. -/
theorem enabledActionsAreSteps : Obligations.EnabledActionsAreSteps := by
  intro s rest hwf
  refine ⟨fun a ha hen => ?_, fun m t h => ?_⟩
  · obtain ⟨t, ht⟩ := takeMove_completes (actionMove a) s
    exact ⟨actionMove a, t, (act_eq_takeMove ha hen).trans ht, (step_cons hwf _ _).trans (takeMove_setSched ht rest)⟩
  · obtain ⟨u, hu⟩ := takeMove_completes m s
    obtain ⟨hne, hen, hmove⟩ := moveAction_enabled m s
    refine ⟨moveAction m s.ph, u, hne, hen, ?_, ?_⟩
    · rw [act_eq_takeMove hne hen, hmove, hu]
    · rw [step_cons hwf, takeMove_setSched hu rest] at h
      exact (Host.Outcome.next.inj h).symm

/-! ### Runs and iterations -/

/-- A run takes its first step, then the rest. -/
theorem run_succ {s t : State} (h : step s = .next t) (k : Nat) :
    Host.Core.run Sys2Proof.core (k + 1) s = Host.Core.run Sys2Proof.core k t := by
  have hstep : Sys2Proof.core.step s = .next t := h
  simp only [Host.Core.run, hstep]

/-- The command that an iteration from a state runs: SAMPLE takes LC, and COMMIT decodes that (R101, R102). -/
def heldInstr (s : State) : Instr :=
  decode s.cfg.cmdMap s.lc

/-- A SAMPLE and its COMMIT, nothing between them. -/
def sampleCommit (s : State) : State :=
  afterCommit (heldInstr s) (sampleCommand s)

/-- One iteration of R100: SAMPLE, COMMIT, and the end of the pause where there is one. -/
def iteration (s : State) : State :=
  (sampleCommit s).setPh .sample

/-- A run that starts with a SAMPLE and its COMMIT. -/
theorem run_sampleCommit {s : State} (hwf : s.cfg.wf = true) (hph : s.ph = .sample) (hown : nextMove s.sched = .own)
    (hown' : nextMove s.sched.tail = .own) (k : Nat) :
    Host.Core.run Sys2Proof.core (k + 2) s =
      Host.Core.run Sys2Proof.core k ((sampleCommit s).setSched s.sched.tail.tail) := by
  have hsample := step_sample hwf hph hown
  have hcommit := step_commit (s := (sampleCommand s).setSched s.sched.tail) hwf rfl hown'
  rw [run_succ hsample, run_succ hcommit, afterCommit_setSched]
  rfl

theorem State.setSched_eq_self {s : State} {v : List Move} (h : s.sched = v) : s.setSched v = s := by
  rw [← h]
  rfl

/-- While RX is silent a SAMPLE and its COMMIT leave nothing scheduled. -/
theorem run_sampleCommit_silent {s : State} (hwf : s.cfg.wf = true) (hph : s.ph = .sample) (hsched : s.sched = [])
    (k : Nat) : Host.Core.run Sys2Proof.core (k + 2) s = Host.Core.run Sys2Proof.core k (sampleCommit s) := by
  have hown : nextMove s.sched = .own := by rw [hsched]; rfl
  have hown' : nextMove s.sched.tail = .own := by rw [hsched]; rfl
  have hsched' : (sampleCommit s).sched = s.sched.tail.tail := by rw [hsched]; exact hsched
  rw [run_sampleCommit hwf hph hown hown', State.setSched_eq_self hsched']

/-- The end of a pause while RX is silent. -/
theorem step_delay_silent {s : State} (hwf : s.cfg.wf = true) (hph : s.ph = .delay) (hsched : s.sched = []) :
    step s = .next (s.setPh .sample) := by
  have hsched' : (s.setPh .sample).sched = s.sched.tail := by rw [hsched]; exact hsched
  rw [step_delay hwf hph (by rw [hsched]; rfl), State.setSched_eq_self hsched']

/-- After a movement command an iteration still has its pause to end; any other command has left PH at SAMPLE (R107). -/
theorem iteration_of_not_movement {s : State} (h : isMovement (heldInstr s) = false) : iteration s = sampleCommit s := by
  have hph : (sampleCommit s).ph = .sample := by simp [sampleCommit, h]
  rw [iteration, ← hph]
  rfl

theorem scriptStep_eq {a : Action} {s t : State} (hen : actionEnabled a s = true) (h : act a s = .next t) :
    scriptStep a s = some t := by
  rw [scriptStep, if_pos hen, h]

/-- `iter` of R77 is an iteration. -/
theorem scriptIter_eq {s : State} (hph : s.ph = .sample) : scriptIter s = some (iteration s) := by
  have hsample : scriptStep .sample s = some (sampleCommand s) := scriptStep_eq (by simp [actionEnabled, hph]) rfl
  have hcommit : scriptStep .commit (sampleCommand s) = some (sampleCommit s) :=
    scriptStep_eq rfl (exec_eq_afterCommit _ _)
  rw [scriptIter, hsample, Option.bind_some, hcommit, Option.bind_some]
  cases hm : isMovement (heldInstr s) with
  | true =>
    have hdelay : (sampleCommit s).ph = .delay := by simp [sampleCommit, hm]
    rw [if_pos hdelay]
    exact scriptStep_eq (by simp [actionEnabled, hdelay]) rfl
  | false =>
    have hnodelay : (sampleCommit s).ph ≠ .delay := by simp [sampleCommit, hm]
    rw [if_neg hnodelay, iteration_of_not_movement hm]

/-- Settles O14: both sides are `iteration`, and with nothing scheduled RX is silent in every step. -/
theorem iterationIsItsSteps : Obligations.IterationIsItsSteps := by
  intro s hwf hph hsched
  refine ⟨iteration s, scriptIter_eq hph, rfl, ?_⟩
  change Host.Core.run Sys2Proof.core (if isMovement (heldInstr s) then 3 else 2) s = _
  cases hm : isMovement (heldInstr s) with
  | true =>
    have hdelay : (sampleCommit s).ph = .delay := by simp [sampleCommit, hm]
    calc Host.Core.run Sys2Proof.core 3 s = Host.Core.run Sys2Proof.core 1 (sampleCommit s) :=
          run_sampleCommit_silent hwf hph hsched 1
      _ = Host.Core.run Sys2Proof.core 0 (iteration s) := run_succ (step_delay_silent (s := sampleCommit s) hwf hdelay hsched) 0
      _ = .next (iteration s) := rfl
  | false =>
    calc Host.Core.run Sys2Proof.core 2 s = Host.Core.run Sys2Proof.core 0 (sampleCommit s) :=
          run_sampleCommit_silent hwf hph hsched 0
      _ = .next (iteration s) := by rw [iteration_of_not_movement hm]; rfl

end Sys2Proof.Machine
end

section
/-! PROOF. The statements about reset, `spec/70_reset_and_hazards.md` R240 to R242, and about what every step keeps: the
invariants of `spec/10_state.md` R32 and the event trace of R36. Of the four kinds of step only a COMMIT touches the duty
registers or the trace, and what it does to them is `afterCommit`. -/

namespace Sys2Proof.Machine

/-! ### The reset state -/

/-- The reload value at reset is the converter's value for duty level 1 (R25, D7). -/
theorem resetWith_tr (cfg : Config) : (State.resetWith cfg).tr = reloadOf cfg 1 := by
  change BitVec.ofNat 9 (256 - cfg.scale) = BitVec.ofNat 9 (256 - 1 * cfg.scale)
  rw [Nat.one_mul]

/-- The reload at reset is one `SCALE` below 256, exactly. -/
theorem resetWith_tr_toNat {cfg : Config} (hwf : cfg.wf = true) : (State.resetWith cfg).tr.toNat + cfg.scale = 256 := by
  have hexact := reloadOf_exact (Config.scale_le hwf) 1
  rw [show (1 : Duty).val = 1 from rfl, Nat.one_mul] at hexact
  rw [resetWith_tr]
  exact hexact

/-- Settles O15: the registers by definition, the reload by `resetWith_tr_toNat`. -/
theorem resetState : Obligations.ResetState := by
  intro cfg hwf s
  have htr : s.tr.toNat + cfg.scale = 256 := resetWith_tr_toNat hwf
  have hled : ∀ i : Fin 8, (0x01#8).getLsbD i.val = decide (i.val = 0) := by decide
  have hreload : s.reload.toNat = 256 - cfg.scale := Nat.eq_sub_of_add_eq htr
  exact ⟨rfl, rfl, rfl, htr, rfl, rfl, rfl, rfl, hled, hreload, rfl⟩

/-- The invariants hold at reset: both counters are 0, and the reload is exact. -/
theorem resetWith_inv {cfg : Config} (hwf : cfg.wf = true) : (State.resetWith cfg).Inv where
  cfgWf := hwf
  reload := by
    rw [resetWith_tr]
    exact reloadOf_exact (Config.scale_le hwf) 1
  ciWidth := Nat.zero_le _
  cdWidth := Nat.zero_le _
  ciCleared := fun _ _ => rfl
  cdCleared := fun _ _ => rfl
  exclusive := .inl rfl
  pauseIsMovement := nofun

/-- Settles O16. -/
theorem resetMeetsInvariant : Obligations.ResetMeetsInvariant := by
  intro cfg hwf
  exact ⟨resetWith_inv hwf, rfl, (resetWith_tr cfg).symm⟩

/-! ### The invariants of R32 -/

/-- No command is both intensity commands. -/
theorem isUp_or_isDown_eq_false (i : Instr) : isUp i = false ∨ isDown i = false := by
  cases i <;> simp [isUp, isDown]

/-- No invariant speaks of the moves still to come. -/
theorem State.Inv.setSched {s : State} (h : s.Inv) (v : List Move) : (s.setSched v).Inv :=
  ⟨h.cfgWf, h.reload, h.ciWidth, h.cdWidth, h.ciCleared, h.cdCleared, h.exclusive, h.pauseIsMovement⟩

/-- No invariant speaks of LC, which RX writes. -/
theorem State.Inv.rxWrite {s : State} (h : s.Inv) (b : Byte) : (rxWrite b s).Inv :=
  ⟨h.cfgWf, h.reload, h.ciWidth, h.cdWidth, h.ciCleared, h.cdCleared, h.exclusive, h.pauseIsMovement⟩

/-- Item 4 says nothing while a sampled command waits for its COMMIT. -/
theorem State.Inv.sampleCommand {s : State} (h : s.Inv) : (sampleCommand s).Inv :=
  ⟨h.cfgWf, h.reload, h.ciWidth, h.cdWidth, fun hph => absurd rfl hph, fun hph => absurd rfl hph, h.exclusive, nofun⟩

/-- The end of a pause leaves SC with the byte of the last COMMIT. -/
theorem State.Inv.delayDone {s : State} (h : s.Inv) (hph : s.ph = .delay) : (delayDone s).Inv := by
  have hcommit : s.ph ≠ .commit := by simp [hph]
  exact ⟨h.cfgWf, h.reload, h.ciWidth, h.cdWidth, fun _ => h.ciCleared hcommit, fun _ => h.cdCleared hcommit,
    h.exclusive, nofun⟩

/-- A COMMIT keeps the reload exact: TR is written with the converter's value or, with DL, not at all (R146). -/
theorem afterCommit_reload {s : State} (h : s.Inv) (i : Instr) :
    (afterCommit i s).tr.toNat + (afterCommit i s).dl.val * s.cfg.scale = 256 := by
  rw [afterCommit_tr, afterCommit_dl]
  split
  · exact reloadOf_exact (Config.scale_le h.cfgWf) _
  · exact h.reload

/-- The COMMIT of the sampled command makes every invariant true again, item 4 by the post-dispatch reset (R105). -/
theorem State.Inv.afterCommit {s : State} (h : s.Inv) : (afterCommit (sampledInstr s) s).Inv where
  cfgWf := h.cfgWf
  reload := afterCommit_reload h _
  ciWidth := by
    rw [afterCommit_ci]
    split
    · exact incCnt_le h.ciWidth
    · exact Nat.zero_le _
  cdWidth := by
    rw [afterCommit_cd]
    split
    · exact incCnt_le h.cdWidth
    · exact Nat.zero_le _
  ciCleared := fun _ (hup : isUp (sampledInstr s) = false) => by simp [hup]
  cdCleared := fun _ (hdown : isDown (sampledInstr s) = false) => by simp [hdown]
  exclusive := by
    obtain hup | hdown := isUp_or_isDown_eq_false (sampledInstr s)
    · exact .inl (by simp [hup])
    · exact .inr (by simp [hdown])
  pauseIsMovement := fun hph => by
    change isMovement (sampledInstr s) = true
    by_contra hmove
    simp [hmove] at hph

/-- Settles O17, by the kind of step. -/
theorem stepKeepsInvariant : Obligations.StepKeepsInvariant := by
  intro s t hs h
  have hs' := hs.setSched s.sched.tail
  obtain ⟨-, ⟨b, -, rfl⟩ | ⟨-, -, rfl⟩ | ⟨-, -, hexec⟩ | ⟨-, hph, rfl⟩⟩ := step_cases h
  · exact hs'.rxWrite b
  · exact hs'.sampleCommand
  · rw [eq_afterCommit hexec]
    exact hs'.afterCommit
  · exact hs'.delayDone hph

/-! ### The duty registers and the trace -/

/-- A step is the COMMIT of the sampled command, or it leaves the duty registers and the trace alone. -/
theorem step_commit_or_keeps_duty {s t : State} (h : step s = .next t) :
    (s.ph = .commit ∧ nextMove s.sched = .own ∧
        t = (afterCommit (sampledInstr s) s).setSched s.sched.tail) ∨
      (¬(s.ph = .commit ∧ nextMove s.sched = .own) ∧ t.dl = s.dl ∧ t.tr = s.tr ∧ t.trace = s.trace) := by
  obtain ⟨-, ⟨b, hrx, rfl⟩ | ⟨-, hph, rfl⟩ | ⟨hown, hph, hexec⟩ | ⟨-, hph, rfl⟩⟩ := step_cases h
  · exact .inr ⟨by simp [hrx], rfl, rfl, rfl⟩
  · exact .inr ⟨by simp [hph], rfl, rfl, rfl⟩
  · exact .inl ⟨hph, hown, (eq_afterCommit hexec).trans (afterCommit_setSched _ _ _)⟩
  · exact .inr ⟨by simp [hph], rfl, rfl, rfl⟩

theorem length_commitEvents_le (i : Instr) (s : State) : (commitEvents i s).length ≤ 2 := by
  cases hm : isMovement i with
  | true =>
    obtain ⟨k, -, hk⟩ := commitEvents_of_movement hm
    rw [hk]
    rfl
  | false =>
    rw [commitEvents_of_not_movement hm]
    split
    · exact Nat.le_refl 2
    · exact Nat.zero_le 2

/-- Settles O20. -/
theorem traceOnlyGrows : Obligations.TraceOnlyGrows := by
  intro s t h
  obtain ⟨hph, hown, rfl⟩ | ⟨hnot, -, -, htrace⟩ := step_commit_or_keeps_duty h
  · exact ⟨commitEvents (sampledInstr s) s, rfl, length_commitEvents_le _ _, fun hnot => absurd ⟨hph, hown⟩ hnot⟩
  · exact ⟨[], by rw [htrace, List.append_nil], Nat.zero_le 2, fun _ => rfl⟩

/-- A sound trace is the boot event and then blocks (R241). -/
theorem traceOk_iff (s : State) :
    s.traceOk = true ↔ ∃ es, s.trace = .status .banner :: es ∧ traceBlocks s.cfg es = true := by
  rw [State.traceOk]
  split
  case h_1 es htrace => simp [htrace]
  case h_2 hnot => simpa using fun es htrace => absurd htrace (hnot es)

/-- Blocks after blocks are blocks. -/
theorem traceBlocks_append {cfg : Config} {es fs : List Event} (hes : traceBlocks cfg es = true)
    (hfs : traceBlocks cfg fs = true) : traceBlocks cfg (es ++ fs) = true := by
  induction es using traceBlocks.induct with
  | case1 => exact hfs
  | case2 v p es ih =>
    simp only [traceBlocks, List.cons_append, Bool.and_eq_true] at hes ⊢
    obtain ⟨hblock, hrest⟩ := hes
    exact ⟨hblock, ih hrest⟩
  | case3 k es ih =>
    simp only [traceBlocks, List.cons_append, Bool.and_eq_true] at hes ⊢
    obtain ⟨hblock, hrest⟩ := hes
    exact ⟨hblock, ih hrest⟩
  | case4 es hnil hduty hmove => simp [traceBlocks] at hes

/-- A duty level of at most 10 is a percentage of at most 100 (R24, R148). -/
theorem percent_le (d : Duty) : percent d ≤ 100 := by
  have := d.isLt
  simp only [percent]
  omega

/-- The two events of an edge are one block: they belong to one duty level (R146, R148). -/
theorem traceBlocks_edgeEvents {cfg : Config} (hwf : cfg.wf = true) (d : Duty) :
    traceBlocks cfg (edgeEvents cfg d) = true := by
  have hmod : percent d % 10 = 0 := Nat.mul_mod_left d.val 10
  have hdiv : percent d / 10 = d.val := Nat.mul_div_left d.val (by decide)
  simp [traceBlocks, edgeEvents, percent_le, hmod, hdiv, reloadOf_exact (Config.scale_le hwf) d]

/-- The events of a COMMIT are one block or none. -/
theorem traceBlocks_commitEvents {s : State} (hwf : s.cfg.wf = true) (i : Instr) :
    traceBlocks s.cfg (commitEvents i s) = true := by
  cases hm : isMovement i with
  | true =>
    obtain ⟨k, hmove, hk⟩ := commitEvents_of_movement hm
    simp [hk, traceBlocks, hmove]
  | false =>
    rw [commitEvents_of_not_movement hm]
    split
    · exact traceBlocks_edgeEvents hwf _
    · rfl

/-- Settles O18: a COMMIT appends blocks to blocks, any other step nothing. -/
theorem stepKeepsTraceShape : Obligations.StepKeepsTraceShape := by
  intro s t hs h
  have hcfg : t.cfg = s.cfg := step_keeps_cfg h
  obtain ⟨es, htrace, hblocks⟩ := (traceOk_iff s).mp hs
  rw [traceOk_iff, hcfg]
  obtain ⟨-, -, rfl⟩ | ⟨-, -, -, hkeep⟩ := step_commit_or_keeps_duty h
  · obtain ⟨hwf, -⟩ := step_cases h
    exact ⟨es ++ commitEvents (sampledInstr s) s, by simp [htrace],
      traceBlocks_append hblocks (traceBlocks_commitEvents hwf _)⟩
  · exact ⟨es, hkeep.trans htrace, hblocks⟩

/-- The reload that a trace hands to the timer goes on from the one its first part handed over. -/
theorem reloadOfEvents_append (v : Reload) (es fs : List Event) :
    reloadOfEvents v (es ++ fs) = reloadOfEvents (reloadOfEvents v es) fs := by
  induction es generalizing v with
  | nil => rfl
  | cons e es ih => cases e <;> exact ih _

/-- A COMMIT writes TR exactly when it tells the timer so, with the same value (R37, R146). -/
theorem reloadOfEvents_commitEvents (i : Instr) (s : State) :
    reloadOfEvents s.tr (commitEvents i s) = (afterCommit i s).tr := by
  rw [afterCommit_tr]
  cases hm : isMovement i with
  | true =>
    obtain ⟨k, -, hk⟩ := commitEvents_of_movement hm
    rw [hk, isEdge_of_movement hm]
    rfl
  | false =>
    rw [commitEvents_of_not_movement hm]
    split <;> rfl

/-- Settles O19. -/
theorem stepKeepsReloadEvents : Obligations.StepKeepsReloadEvents := by
  intro s t hs h
  rw [step_keeps_cfg h]
  obtain ⟨-, -, rfl⟩ | ⟨-, -, htr, htrace⟩ := step_commit_or_keeps_duty h
  · rw [State.setSched_trace, afterCommit_trace, reloadOfEvents_append, hs]
    exact reloadOfEvents_commitEvents _ s
  · rw [htrace, hs, htr]

/-- The exact reload makes TR a function of DL (R25). -/
theorem State.Inv.tr_eq_of_dl_eq {s t : State} (hs : s.Inv) (ht : t.Inv) (hcfg : t.cfg = s.cfg) (hdl : t.dl = s.dl) :
    t.tr = s.tr := by
  have hreload := ht.reload
  rw [hcfg, hdl] at hreload
  exact BitVec.eq_of_toNat_eq (Nat.add_right_cancel (hreload.trans hs.reload.symm))

/-- Settles O23: DL by the COMMIT's own edge test, TR because the exact reload ties it to DL before and after the step. -/
theorem dutyChangesOnlyOnEdges : Obligations.DutyChangesOnlyOnEdges := by
  intro s t hs h
  refine ⟨fun hdl => ?_, fun htr hdl => ?_⟩
  · obtain ⟨hph, hown, rfl⟩ | ⟨-, hkeep, -, -⟩ := step_commit_or_keeps_duty h
    · have hedge : isEdge (sampledInstr s) s = true := by
        by_contra hnot
        simp [hnot] at hdl
      exact ⟨hph, hown, (isEdge_iff _ s).mp hedge⟩
    · exact absurd hkeep hdl
  · exact htr (hs.tr_eq_of_dl_eq (stepKeepsInvariant s t hs h) (step_keeps_cfg h) hdl)

end Sys2Proof.Machine
end

section
/-! PROOF. The statements about `spec/41_pattern_commands.md`: BACKWARD and the toggles (R122 to R127), and the laws of the
output pattern. Each OS pattern is put into arithmetic or into bits once; the laws about rows of commands are inductions over
the row. -/

namespace Sys2Proof.Machine

/-! ### Lists of commands -/

/-- The state that a list of commands committed one after the other leaves. -/
def afterCommits (is : List Instr) (s : State) : State :=
  is.foldl (fun s i => afterCommit i s) s

@[simp] theorem afterCommits_nil (s : State) : afterCommits [] s = s := rfl

@[simp] theorem afterCommits_cons (i : Instr) (is : List Instr) (s : State) :
    afterCommits (i :: is) s = afterCommits is (afterCommit i s) := rfl

/-- Every list of commands completes and leaves `afterCommits`. -/
theorem commitAll_eq_afterCommits (is : List Instr) (s : State) : commitAll is s = .next (afterCommits is s) := by
  induction is generalizing s with
  | nil => rfl
  | cons i is ih =>
    rw [commitAll, exec_eq_afterCommit]
    exact ih (afterCommit i s)

/-- No list of commands changes the parameters (R33). -/
@[simp] theorem afterCommits_cfg (is : List Instr) (s : State) : (afterCommits is s).cfg = s.cfg := by
  induction is generalizing s with
  | nil => rfl
  | cons i is ih => exact ih (afterCommit i s)

/-- A command repeated `n` times applies its OS pattern `n` times. -/
theorem afterCommits_replicate_os (n : Nat) (i : Instr) (s : State) :
    (afterCommits (List.replicate n i) s).os = (commitOs s.cfg i)^[n] s.os := by
  induction n generalizing s with
  | zero => rfl
  | succ n ih => exact ih (afterCommit i s)

/-! ### FORWARD -/

/-- FORWARD turns the lit LED `k` into the next one, the highest into the lowest (R121). -/
theorem forwardOs_oneHot {os : Byte} {k : Nat} (hk : k < 8) (hos : os.toNat = 2 ^ k) :
    (forwardOs os).toNat = 2 ^ ((k + 1) % 8) := by
  rw [forwardOs_toNat, hos]
  obtain rfl | hlow : k = 7 ∨ k < 7 := by omega
  · rfl
  · have hlt : 2 ^ k < 2 ^ 7 := Nat.pow_lt_pow_right (by decide) hlow
    rw [if_neg (by omega), Nat.mod_eq_of_lt (by omega), Nat.pow_succ, Nat.mul_comm]

/-- `n` of them move the lit LED by `n`, around the end. -/
theorem forwardOs_iterate_oneHot {os : Byte} {k : Nat} (hk : k < 8) (hos : os.toNat = 2 ^ k) (n : Nat) :
    (forwardOs^[n] os).toNat = 2 ^ ((k + n) % 8) := by
  induction n with
  | zero => rw [Function.iterate_zero_apply, hos, Nat.add_zero, Nat.mod_eq_of_lt hk]
  | succ n ih =>
    rw [Function.iterate_succ_apply', forwardOs_oneHot (Nat.mod_lt _ (by decide)) ih, Nat.mod_add_mod, Nat.add_assoc]

/-- Settles O34: eight steps move the lit LED by a whole turn. -/
theorem forwardRotatesOneHot : Obligations.ForwardRotatesOneHot := by
  intro s i hos
  refine ⟨⟨_, exec_eq_afterCommit .forward s, forwardOs_oneHot i.isLt hos⟩, _, commitAll_eq_afterCommits _ s, ?_⟩
  apply BitVec.eq_of_toNat_eq
  calc (afterCommits (List.replicate 8 .forward) s).os.toNat = (forwardOs^[8] s.os).toNat :=
        congrArg BitVec.toNat (afterCommits_replicate_os 8 .forward s)
    _ = 2 ^ ((i.val + 8) % 8) := forwardOs_iterate_oneHot i.isLt hos 8
    _ = s.os.toNat := by rw [Nat.add_mod_right, Nat.mod_eq_of_lt i.isLt, hos]

/-! ### BACKWARD -/

/-- The one place to the right is a halving. -/
theorem toNat_ushiftRight_one (os : Byte) : (os >>> 1).toNat = os.toNat / 2 := by
  rw [BitVec.toNat_ushiftRight, Nat.shiftRight_eq_div_pow, Nat.pow_one]

/-- R122 as arithmetic: the two modes test OS before and after the halving, so they differ at 1 only. -/
theorem backwardOs_toNat (mode : BwdMode) (os : Byte) :
    (backwardOs mode os).toNat =
      if os.toNat = 0 ∨ (os.toNat = 1 ∧ mode = .postcheck) then 128 else os.toNat / 2 := by
  cases mode with
  | precheck =>
    have htest : os = 0#8 ↔ os.toNat = 0 := by bv_omega
    simp [backwardOs, htest, apply_ite BitVec.toNat, Nat.shiftRight_eq_div_pow]
  | postcheck =>
    have htest : os >>> 1 = 0#8 ↔ os.toNat = 0 ∨ os.toNat = 1 := by
      rw [← BitVec.toNat_inj, toNat_ushiftRight_one, BitVec.toNat_ofNat]
      omega
    simp [backwardOs, htest, apply_ite BitVec.toNat, Nat.shiftRight_eq_div_pow]

/-- Settles O25: the byte by its row, the new OS by `backwardOs_toNat`; `execBackward_eq` gives the completion and every other
field. -/
theorem backwardResult : Obligations.BackwardResult := by
  refine ⟨fun m hm => by rw [decode_A, hm]; rfl, fun s =>
    ⟨_, [.status .atras, .delayReq], execBackward_eq s, backwardOs_toNat s.cfg.bwdMode s.os, ?_⟩⟩
  exact ⟨rfl, rfl, rfl, rfl, List.Perm.refl _, rfl, rfl, rfl, rfl, rfl, rfl⟩

/-- A lit LED that is not the lowest turns into the one below it, in both modes (R123). -/
theorem backwardOs_oneHot_succ (mode : BwdMode) {os : Byte} {k : Nat} (hos : os.toNat = 2 ^ (k + 1)) :
    (backwardOs mode os).toNat = 2 ^ k := by
  have hpos : 0 < 2 ^ k := Nat.two_pow_pos k
  rw [Nat.pow_succ] at hos
  rw [backwardOs_toNat, if_neg (by omega)]
  omega

/-- The nine patterns of R123 under PRECHECK, in the order in which BACKWARD leaves them: all off, then one lit LED. -/
def precheckPattern (k : Nat) : Nat :=
  2 ^ k / 2

@[simp] theorem precheckPattern_succ (k : Nat) : precheckPattern (k + 1) = 2 ^ k := by
  rw [precheckPattern, Nat.pow_succ, Nat.mul_div_left _ (by decide)]

/-- Under PRECHECK a BACKWARD goes one pattern down, from all off to the highest LED (R123). -/
theorem backwardOs_precheckPattern {os : Byte} {k : Nat} (hk : k < 9) (hos : os.toNat = precheckPattern k) :
    (backwardOs .precheck os).toNat = precheckPattern ((k + 8) % 9) := by
  match k with
  | 0 =>
    rw [backwardOs_toNat, if_pos (.inl hos)]
    rfl
  | 1 =>
    rw [backwardOs_toNat, hos]
    rfl
  | k + 2 =>
    rw [precheckPattern_succ] at hos
    rw [backwardOs_oneHot_succ _ hos, show (k + 2 + 8) % 9 = k + 1 by omega, precheckPattern_succ]

/-- `n` of them go `n` patterns down, around the end. -/
theorem backwardOs_iterate_precheckPattern {os : Byte} {k : Nat} (hk : k < 9) (hos : os.toNat = precheckPattern k) (n : Nat) :
    ((backwardOs .precheck)^[n] os).toNat = precheckPattern ((k + 8 * n) % 9) := by
  induction n with
  | zero => rw [Function.iterate_zero_apply, hos, Nat.mul_zero, Nat.add_zero, Nat.mod_eq_of_lt hk]
  | succ n ih =>
    rw [Function.iterate_succ_apply', backwardOs_precheckPattern (Nat.mod_lt _ (by decide)) ih, Nat.mod_add_mod,
      Nat.mul_succ, Nat.add_assoc]

/-- Nine BACKWARDs run through all nine patterns under PRECHECK. -/
theorem backward_nine_of_precheckPattern {s : State} {k : Nat} (hmode : s.cfg.bwdMode = .precheck) (hk : k < 9)
    (hos : s.os.toNat = precheckPattern k) : (afterCommits (List.replicate 9 .backward) s).os = s.os := by
  have hrow := afterCommits_replicate_os 9 .backward s
  rw [show commitOs s.cfg .backward = backwardOs .precheck by funext os; rw [← hmode]; rfl] at hrow
  apply BitVec.eq_of_toNat_eq
  rw [hrow, backwardOs_iterate_precheckPattern hk hos, hos, Nat.add_mul_mod_self_right, Nat.mod_eq_of_lt hk]

/-- Settles O35, clause by clause: the two modes part at the lowest LED. -/
theorem backwardCycles : Obligations.BackwardCycles := by
  refine ⟨fun s i hmode hos => ⟨_, execBackward_eq s, ?_⟩, fun s i _ hi hos => ⟨_, execBackward_eq s, ?_⟩,
    fun s hmode hos => ⟨_, execBackward_eq s, ?_⟩, fun s i hmode hos => ⟨_, commitAll_eq_afterCommits _ s, ?_⟩,
    fun s hos => ⟨_, execBackward_eq s, ?_⟩⟩
  · change (backwardOs s.cfg.bwdMode s.os).toNat = _
    obtain ⟨k, hk⟩ := i
    match k with
    | 0 =>
      rw [backwardOs_toNat, if_pos (.inr ⟨hos, hmode⟩)]
      rfl
    | k + 1 => rw [backwardOs_oneHot_succ _ hos, show (k + 1 + 7) % 8 = k by omega]
  · change (backwardOs s.cfg.bwdMode s.os).toNat = _
    obtain ⟨k, hk⟩ := Nat.exists_eq_add_one.mpr hi
    rw [hk] at hos ⊢
    exact backwardOs_oneHot_succ _ hos
  · change (backwardOs s.cfg.bwdMode s.os).toNat = 0
    rw [hmode, backwardOs_toNat, hos]
    rfl
  · obtain hoff | hlit := hos
    · exact backward_nine_of_precheckPattern (k := 0) hmode (by decide) hoff
    · exact backward_nine_of_precheckPattern (k := i.val + 1) hmode (by omega) (by rw [precheckPattern_succ, hlit])
  · change backwardOs s.cfg.bwdMode s.os = 0x80#8
    apply BitVec.eq_of_toNat_eq
    rw [backwardOs_toNat, hos]
    rfl

/-! ### The toggles -/

/-- Inverting the low four bits leaves the nibble above them alone and takes the low one from 15 (R125). -/
theorem toggleLowOs_nibbles (os : Byte) :
    (toggleLowOs os).toNat / 16 = os.toNat / 16 ∧ (toggleLowOs os).toNat % 16 = 15 - os.toNat % 16 := by
  have hinvert : ∀ k : Fin 16, k.val ^^^ 15 = 15 - k.val := by decide
  have hlow := hinvert ⟨os.toNat % 2 ^ 4, Nat.mod_lt _ (by decide)⟩
  rw [toggleLowOs, BitVec.toNat_xor]
  exact ⟨(Nat.xor_div_two_pow (n := 4)).trans (Nat.xor_zero _), (Nat.xor_mod_two_pow (n := 4)).trans hlow⟩

/-- Inverting the high four bits leaves the nibble below them alone and takes the high one from 15 (R127). -/
theorem toggleHighOs_nibbles (os : Byte) :
    (toggleHighOs os).toNat / 16 = 15 - os.toNat / 16 ∧ (toggleHighOs os).toNat % 16 = os.toNat % 16 := by
  have hinvert : ∀ k : Fin 16, k.val ^^^ 15 = 15 - k.val := by decide
  have hhigh := hinvert ⟨os.toNat / 2 ^ 4, by have := os.isLt; omega⟩
  rw [toggleHighOs, BitVec.toNat_xor]
  exact ⟨(Nat.xor_div_two_pow (n := 4)).trans hhigh, (Nat.xor_mod_two_pow (n := 4)).trans (Nat.xor_zero _)⟩

/-- Settles O26: the byte by its row, the new OS by `toggleLowOs_nibbles`, the rest by `execToggleLow_eq`. -/
theorem toggleLowResult : Obligations.ToggleLowResult := by
  refine ⟨fun m hm => by rw [decode_D, hm]; rfl, fun s => ?_⟩
  obtain ⟨hhigh, hlow⟩ := toggleLowOs_nibbles s.os
  exact ⟨_, [.status .piscaMenos, .delayReq], execToggleLow_eq s, hhigh, hlow, rfl, rfl, rfl, rfl, List.Perm.refl _,
    rfl, rfl, rfl, rfl, rfl, rfl⟩

/-- Settles O27: the byte by its row, the new OS by `toggleHighOs_nibbles`, the rest by `execToggleHigh_eq`. -/
theorem toggleHighResult : Obligations.ToggleHighResult := by
  refine ⟨fun m hm => by rw [decode_E, hm]; rfl, fun s => ?_⟩
  obtain ⟨hhigh, hlow⟩ := toggleHighOs_nibbles s.os
  exact ⟨_, [.status .piscaMais, .delayReq], execToggleHigh_eq s, hhigh, hlow, rfl, rfl, rfl, rfl, List.Perm.refl _,
    rfl, rfl, rfl, rfl, rfl, rfl⟩

/-- TOGGLE_LOW flips exactly the bits 0 to 3 (R125). -/
theorem toggleLowOs_getLsbD (os : Byte) (k : Fin 8) :
    (toggleLowOs os).getLsbD k.val = if k.val < 4 then !os.getLsbD k.val else os.getLsbD k.val := by
  have hmask : ∀ k : Fin 8, (0x0F#8).getLsbD k.val = decide (k.val < 4) := by decide
  rw [toggleLowOs, BitVec.getLsbD_xor, hmask]
  by_cases hk : k.val < 4 <;> simp [hk]

/-- TOGGLE_HIGH flips exactly the bits 4 to 7 (R127). -/
theorem toggleHighOs_getLsbD (os : Byte) (k : Fin 8) :
    (toggleHighOs os).getLsbD k.val = if k.val < 4 then os.getLsbD k.val else !os.getLsbD k.val := by
  have hmask : ∀ k : Fin 8, (0xF0#8).getLsbD k.val = !decide (k.val < 4) := by decide
  rw [toggleHighOs, BitVec.getLsbD_xor, hmask]
  by_cases hk : k.val < 4 <;> simp [hk]

theorem toggleLowOs_toggleLowOs (os : Byte) : toggleLowOs (toggleLowOs os) = os := by
  rw [toggleLowOs, toggleLowOs, BitVec.xor_assoc, BitVec.xor_self, BitVec.xor_zero]

theorem toggleHighOs_toggleHighOs (os : Byte) : toggleHighOs (toggleHighOs os) = os := by
  rw [toggleHighOs, toggleHighOs, BitVec.xor_assoc, BitVec.xor_self, BitVec.xor_zero]

/-- One of each inverts every bit, in this order (R127). -/
theorem toggleHighOs_toggleLowOs (os : Byte) : toggleHighOs (toggleLowOs os) = ~~~os := by
  rw [toggleHighOs, toggleLowOs, BitVec.xor_assoc]
  exact BitVec.xor_allOnes

/-- And in the other. -/
theorem toggleLowOs_toggleHighOs (os : Byte) : toggleLowOs (toggleHighOs os) = ~~~os := by
  rw [toggleHighOs, toggleLowOs, BitVec.xor_assoc]
  exact BitVec.xor_allOnes

/-- Settles O36. -/
theorem toggleLaws : Obligations.ToggleLaws := by
  refine ⟨fun s => ⟨_, exec_eq_afterCommit _ s, toggleLowOs_getLsbD s.os⟩,
    fun s => ⟨_, exec_eq_afterCommit _ s, toggleHighOs_getLsbD s.os⟩,
    fun s => ⟨_, commitAll_eq_afterCommits _ s, toggleLowOs_toggleLowOs s.os⟩,
    fun s => ⟨_, commitAll_eq_afterCommits _ s, toggleHighOs_toggleHighOs s.os⟩,
    fun s => ⟨_, _, commitAll_eq_afterCommits _ s, commitAll_eq_afterCommits _ s, ?_, ?_⟩⟩
  · exact (toggleHighOs_toggleLowOs s.os).trans (toggleLowOs_toggleHighOs s.os).symm
  · exact (congrArg BitVec.toNat (toggleHighOs_toggleLowOs s.os)).trans BitVec.toNat_not

end Sys2Proof.Machine
end

section
/-! PROOF. The statements about `spec/42_intensity_commands.md`: the counter and the converter (R145 to R147), the two commands
(R141, R143), the duty lines (R148), and the laws about rows and repetitions of edges (R142, R144, R149 to R151). INTENSITY_UP
and INTENSITY_DOWN are argued once, over the command: each has its own counter and its own next duty level. -/

namespace Sys2Proof.Machine

/-! ### The counter and the converter -/

/-- The increment of R145 with its overflow written out. -/
theorem incCnt_eq (cfg : Config) (v : Nat) :
    incCnt cfg v = if v < 2 ^ cfg.cntW - 1 then v + 1 else if cfg.cntOvf = .saturate then v else 0 := by
  cases h : cfg.cntOvf <;> simp [incCnt, Config.cntMax, h]

/-- A legal counter has at least one bit, so an edge takes it from 0 to 1. -/
theorem incCnt_zero {cfg : Config} (hwf : cfg.wf = true) : incCnt cfg 0 = 1 :=
  if_pos (Config.cntMax_pos hwf)

/-- Settles O42: below its maximum a counter is one up in both modes; at it the modes part. -/
theorem counterIncrement : Obligations.CounterIncrement := by
  intro cfg v hv
  rw [incCnt_eq]
  by_cases hmax : v < 2 ^ cfg.cntW - 1
  · rw [if_pos hmax, Nat.mod_eq_of_lt (by omega)]
    exact ⟨by omega, fun _ => rfl, fun _ => by omega⟩
  · rw [if_neg hmax, show v + 1 = 2 ^ cfg.cntW by omega, Nat.mod_self]
    cases hovf : cfg.cntOvf with
    | saturate => exact ⟨by simpa using hv, nofun, fun _ => by simp; omega⟩
    | wrap => exact ⟨by simp, fun _ => by simp, nofun⟩

/-- Under SATURATE a counter that starts at 0 stops at its maximum. -/
theorem incCnt_iterate_saturate {cfg : Config} (hovf : cfg.cntOvf = .saturate) (n : Nat) :
    (incCnt cfg)^[n] 0 = min n (2 ^ cfg.cntW - 1) := by
  induction n with
  | zero => exact (Nat.zero_min _).symm
  | succ n ih =>
    have hpow := Nat.two_pow_pos cfg.cntW
    obtain ⟨-, -, hsat⟩ := counterIncrement cfg (min n (2 ^ cfg.cntW - 1)) (by omega)
    rw [Function.iterate_succ_apply', ih, hsat hovf]
    omega

/-- Under WRAP a counter that starts at 0 counts modulo `2^CNT_W`. -/
theorem incCnt_iterate_wrap {cfg : Config} (hovf : cfg.cntOvf = .wrap) (n : Nat) :
    (incCnt cfg)^[n] 0 = n % 2 ^ cfg.cntW := by
  induction n with
  | zero => exact (Nat.zero_mod _).symm
  | succ n ih =>
    obtain ⟨-, hwrap, -⟩ := counterIncrement cfg (n % 2 ^ cfg.cntW) (Nat.mod_lt _ (Nat.two_pow_pos _))
    rw [Function.iterate_succ_apply', ih, hwrap hovf, Nat.mod_add_mod]

/-- Settles O43: all four clauses are arithmetic about the exact value of the converter, at `d` and one level up. -/
theorem converterExact : Obligations.ConverterExact := by
  intro cfg d hwf
  have hscale := Config.scale_le hwf
  have hexact := reloadOf_exact hscale d
  have hbound : d.val * cfg.scale ≤ 10 * cfg.scale := Nat.mul_le_mul_right _ (by omega)
  refine ⟨by omega, by omega, by omega, fun hd => ?_⟩
  have hnext := reloadOf_exact hscale (dutyUp d)
  rw [dutyUp_val, Nat.min_eq_left hd, Nat.succ_mul] at hnext
  omega

/-! ### The two commands -/

/-- Settles O28: the byte by its row; on an edge `execIntensityUp_edge`, whose reload the converter makes exact; off it
`execIntensityUp_held`. -/
theorem intensityUpResult : Obligations.IntensityUpResult := by
  refine ⟨decode_P, fun s hwf hedge => ⟨_, execIntensityUp_edge hedge, dutyUp_val s.dl,
    reloadOf_exact (Config.scale_le hwf) _, incCnt_zero hwf, rfl, rfl, rfl, rfl, rfl, rfl, rfl, rfl⟩, fun s hheld => ?_⟩
  rw [← incCnt_eq]
  exact execIntensityUp_held hheld

/-- Settles O29, in the same way; the statement's level is an integer. -/
theorem intensityDownResult : Obligations.IntensityDownResult := by
  refine ⟨fun m hm => by rw [decode_L, hm]; rfl, fun s hwf hedge => ⟨_, execIntensityDown_edge hedge, ?_,
    reloadOf_exact (Config.scale_le hwf) _, incCnt_zero hwf, rfl, rfl, rfl, rfl, rfl, rfl, rfl, rfl⟩, fun s hheld => ?_⟩
  · change ((dutyDown s.dl).val : Int) = max ((s.dl.val : Int) - 1) 0
    rw [dutyDown_val]
    omega
  · rw [← incCnt_eq]
    exact execIntensityDown_held hheld

/-- An edge appends its two events, which carry the new TR and the new duty level; off an edge an intensity command appends
nothing. -/
theorem afterCommit_trace_of_not_movement {i : Instr} (hi : isMovement i = false) (s : State) :
    (afterCommit i s).trace =
      s.trace ++
        if isEdge i s then
          [.setReload (afterCommit i s).tr, .status (.duty ((afterCommit i s).dl.val * 10))]
        else [] := by
  rw [afterCommit_trace, commitEvents_of_not_movement hi]
  cases hedge : isEdge i s <;> simp [hedge, edgeEvents, percent]

/-- Settles O31: a movement command's events are fixed, the others' by `afterCommit_trace_of_not_movement`. -/
theorem commitEventOrder : Obligations.CommitEventOrder := by
  intro i s t h
  rw [eq_afterCommit h]
  cases i with
  | forward | backward | toggleLow | toggleHigh | defaultCmd _ => rfl
  | intensityUp => simpa [isEdge] using afterCommit_trace_of_not_movement (i := .intensityUp) rfl s
  | intensityDown => simpa [isEdge] using afterCommit_trace_of_not_movement (i := .intensityDown) rfl s

/-! ### Duty lines -/

theorem dutyLines_append (es fs : List Event) : dutyLines (es ++ fs) = dutyLines es + dutyLines fs := by
  induction es using dutyLines.induct with
  | case1 => simp [dutyLines]
  | case2 p es ih =>
    simp only [dutyLines, List.cons_append, ih]
    omega
  | case3 e es hduty ih => simpa [dutyLines] using ih

/-- A COMMIT reports its edge with one duty line, and reports none without (R148). -/
theorem dutyLines_commitEvents (i : Instr) (s : State) :
    dutyLines (commitEvents i s) = if isEdge i s then 1 else 0 := by
  cases i with
  | forward | backward | toggleLow | toggleHigh | defaultCmd _ => rfl
  | intensityUp | intensityDown =>
    rw [commitEvents_of_not_movement rfl]
    split <;> rfl

theorem dutyLines_afterCommit (i : Instr) (s : State) :
    dutyLines (afterCommit i s).trace = dutyLines s.trace + if isEdge i s then 1 else 0 := by
  rw [afterCommit_trace, dutyLines_append, dutyLines_commitEvents]

/-- Settles O44. -/
theorem dutyLinesOnEdgesOnly : Obligations.DutyLinesOnEdgesOnly := by
  intro i s t h
  rw [eq_afterCommit h, dutyLines_afterCommit]
  simp only [isEdge_iff]

/-! ### Edges one after the other -/

/-- The intensity commands (R15). -/
def isIntensity (i : Instr) : Prop :=
  i = .intensityUp ∨ i = .intensityDown

theorem isMovement_of_isIntensity {i : Instr} (h : isIntensity i) : isMovement i = false := by
  obtain rfl | rfl := h <;> rfl

/-- `n` edges up: `DL + n`, held at 10 (R142). -/
theorem edgeDuty_up_iterate (n : Nat) (d : Duty) : ((edgeDuty .intensityUp)^[n] d).val = min (d.val + n) 10 := by
  induction n with
  | zero => exact (Nat.min_eq_left (Nat.le_of_lt_succ d.isLt)).symm
  | succ n ih =>
    rw [Function.iterate_succ_apply', edgeDuty, dutyUp_val, ih]
    omega

/-- `n` edges down: `DL - n`, held at 0 (R144). -/
theorem edgeDuty_down_iterate (n : Nat) (d : Duty) : ((edgeDuty .intensityDown)^[n] d).val = d.val - n := by
  induction n with
  | zero => rfl
  | succ n ih =>
    rw [Function.iterate_succ_apply', edgeDuty, dutyDown_val, ih]
    omega

/-- What an edge does to the duty level, the reload and the duty lines. -/
theorem afterCommit_of_edge {i : Instr} {s : State} (h : isEdge i s = true) :
    (afterCommit i s).dl = edgeDuty i s.dl ∧ (afterCommit i s).tr = reloadOf s.cfg (edgeDuty i s.dl) ∧
      dutyLines (afterCommit i s).trace = dutyLines s.trace + 1 := by
  rw [dutyLines_afterCommit, h]
  simp [h]

/-- Off an edge they stay. -/
theorem afterCommit_of_not_edge {i : Instr} {s : State} (h : isEdge i s = false) :
    (afterCommit i s).dl = s.dl ∧ (afterCommit i s).tr = s.tr ∧
      dutyLines (afterCommit i s).trace = dutyLines s.trace := by
  rw [dutyLines_afterCommit, h]
  simp [h]

/-- A command that is no intensity command is no edge. -/
theorem isEdge_of_not_isIntensity {i : Instr} (h : i ≠ .intensityUp ∧ i ≠ .intensityDown) (s : State) :
    isEdge i s = false := by
  rw [Bool.eq_false_iff, ne_eq, isEdge_iff]
  simp [h]

/-- Any other command clears the counter of an intensity command, whose next COMMIT is then an edge (R105, R150). -/
theorem isEdge_afterCommit_of_ne {c i : Instr} (hc : isIntensity c) (hne : i ≠ c) (s : State) :
    isEdge c (afterCommit i s) = true := by
  obtain rfl | rfl := hc
  · simp [isEdge, isUp_eq_false hne]
  · simp [isEdge, isDown_eq_false hne]

/-- Settles O45: the command between clears the counter. -/
theorem otherCommandRearms : Obligations.OtherCommandRearms := by
  refine ⟨fun i s hi => ?_, fun i s hi => ?_⟩
  · obtain ⟨hdl, -, hlines⟩ := afterCommit_of_edge (isEdge_afterCommit_of_ne (.inl rfl) hi s)
    exact ⟨_, _, exec_eq_afterCommit i s, exec_eq_afterCommit _ _, by rw [hdl, edgeDuty, dutyUp_val], hlines⟩
  · obtain ⟨hdl, -, hlines⟩ := afterCommit_of_edge (isEdge_afterCommit_of_ne (.inr rfl) hi s)
    exact ⟨_, _, exec_eq_afterCommit i s, exec_eq_afterCommit _ _, by rw [hdl, edgeDuty, dutyDown_val], hlines⟩

/-- The reload is the converter's value for the duty level. -/
def Converted (s : State) : Prop :=
  s.tr = reloadOf s.cfg s.dl

/-- No COMMIT separates TR from DL (R146). -/
theorem Converted.afterCommit {s : State} (h : Converted s) (i : Instr) : Converted (afterCommit i s) := by
  cases hedge : isEdge i s with
  | true =>
    obtain ⟨hdl, htr, -⟩ := afterCommit_of_edge hedge
    rw [Converted, htr, hdl]
    rfl
  | false =>
    obtain ⟨hdl, htr, -⟩ := afterCommit_of_not_edge hedge
    rw [Converted, htr, hdl]
    exact h

theorem Converted.afterCommits {s : State} (h : Converted s) (is : List Instr) : Converted (afterCommits is s) := by
  induction is generalizing s with
  | nil => exact h
  | cons i is ih => exact ih (h.afterCommit i)

/-- A re-arming command and then the edge of `c`. -/
theorem rearmed_edge {c i : Instr} (hc : isIntensity c) (hi : i ≠ .intensityUp ∧ i ≠ .intensityDown) (s : State) :
    (afterCommit c (afterCommit i s)).dl = edgeDuty c s.dl ∧ Converted (afterCommit c (afterCommit i s)) ∧
      dutyLines (afterCommit c (afterCommit i s)).trace = dutyLines s.trace + 1 := by
  have hne : i ≠ c := by
    obtain rfl | rfl := hc
    · exact hi.1
    · exact hi.2
  obtain ⟨hdl, htr, hlines⟩ := afterCommit_of_edge (isEdge_afterCommit_of_ne hc hne s)
  obtain ⟨hkeepDl, -, hkeepLines⟩ := afterCommit_of_not_edge (isEdge_of_not_isIntensity hi s)
  exact ⟨by rw [hdl, hkeepDl], htr.trans (congrArg (reloadOf s.cfg) hdl.symm), by rw [hlines, hkeepLines]⟩

/-- A row of edges of `c`, each re-armed: every one of them moves the duty level and reports (R142, R144). -/
theorem rearmed_edges {c : Instr} (hc : isIntensity c) (is : List Instr) (s : State)
    (his : ∀ i ∈ is, i ≠ .intensityUp ∧ i ≠ .intensityDown) :
    (afterCommits (eachThen c is) s).dl = (edgeDuty c)^[is.length] s.dl ∧
      dutyLines (afterCommits (eachThen c is) s).trace = dutyLines s.trace + is.length := by
  induction is generalizing s with
  | nil => exact ⟨rfl, rfl⟩
  | cons i is ih =>
    obtain ⟨hdl, -, hlines⟩ := rearmed_edge hc (his i List.mem_cons_self) s
    obtain ⟨hdls, hliness⟩ := ih (afterCommit c (afterCommit i s)) fun j hj => his j (List.mem_cons_of_mem i hj)
    rw [eachThen, afterCommits_cons, afterCommits_cons, hdls, hliness, hdl, hlines]
    exact ⟨rfl, by rw [List.length_cons]; omega⟩

/-- One edge is enough to make the reload exact, whatever it was before. -/
theorem rearmed_edges_reload {c : Instr} (hc : isIntensity c) {is : List Instr} {s : State} (hwf : s.cfg.wf = true)
    (hne : is ≠ []) (his : ∀ i ∈ is, i ≠ .intensityUp ∧ i ≠ .intensityDown) :
    (afterCommits (eachThen c is) s).tr.toNat + (afterCommits (eachThen c is) s).dl.val * s.cfg.scale = 256 := by
  have hconverted : Converted (afterCommits (eachThen c is) s) := by
    obtain ⟨i, is, rfl⟩ := List.exists_cons_of_ne_nil hne
    obtain ⟨-, hfirst, -⟩ := rearmed_edge hc (his i List.mem_cons_self) s
    exact hfirst.afterCommits (eachThen c is)
  rw [hconverted, afterCommits_cfg]
  exact reloadOf_exact (Config.scale_le hwf) _

/-- Settles O37. -/
theorem upEdgesClampAtTen : Obligations.UpEdgesClampAtTen := by
  intro is s hwf hne his
  obtain ⟨hdl, hlines⟩ := rearmed_edges (.inl rfl) is s his
  exact ⟨_, commitAll_eq_afterCommits _ s, by rw [hdl, edgeDuty_up_iterate],
    rearmed_edges_reload (.inl rfl) hwf hne his, hlines⟩

/-- Settles O38. -/
theorem downEdgesClampAtZero : Obligations.DownEdgesClampAtZero := by
  intro is s hwf hne his
  obtain ⟨hdl, hlines⟩ := rearmed_edges (.inr rfl) is s his
  exact ⟨_, commitAll_eq_afterCommits _ s, by rw [hdl, edgeDuty_down_iterate]; omega,
    rearmed_edges_reload (.inr rfl) hwf hne his, hlines⟩

/-! ### A held intensity command -/

/-- The counter that decides whether an intensity command is an edge (R141, R143). -/
def ownCounter (i : Instr) (s : State) : Nat :=
  if isUp i then s.ci else s.cd

theorem isEdge_eq_ownCounter {i : Instr} (hi : isIntensity i) (s : State) : isEdge i s = (ownCounter i s == 0) := by
  obtain rfl | rfl := hi <;> rfl

/-- SAMPLE writes no counter (R101). -/
theorem isEdge_sampleCommand (i : Instr) (s : State) : isEdge i (sampleCommand s) = isEdge i s := by
  cases i <;> rfl

theorem ownCounter_afterCommit {i : Instr} (hi : isIntensity i) (s : State) :
    ownCounter i (afterCommit i s) = incCnt s.cfg (ownCounter i s) := by
  obtain rfl | rfl := hi <;> rfl

/-- A legal machine about to SAMPLE a byte that selects `i`. -/
structure Holding (i : Instr) (s : State) : Prop where
  wf : s.cfg.wf = true
  ph : s.ph = .sample
  held : heldInstr s = i

/-- One iteration of a held intensity command: a COMMIT of it, from a state that differs in SC and PH only. -/
theorem Holding.sampleCommit_eq {i : Instr} {s : State} (h : Holding i s) :
    sampleCommit s = afterCommit i (sampleCommand s) := by
  rw [sampleCommit, h.held]

/-- An intensity command leaves LC alone (R55), and OS to the movement commands (R23). -/
theorem Holding.sampleCommit_frame {i : Instr} {s : State} (hi : isIntensity i) (h : Holding i s) :
    (sampleCommit s).lc = s.lc ∧ (sampleCommit s).os = s.os := by
  rw [h.sampleCommit_eq]
  obtain rfl | rfl := hi <;> exact ⟨rfl, rfl⟩

/-- So the next iteration runs it again (R114). -/
theorem Holding.sampleCommit {i : Instr} {s : State} (hi : isIntensity i) (h : Holding i s) :
    Holding i (sampleCommit s) where
  wf := h.wf
  ph := by simp [h.sampleCommit_eq, isMovement_of_isIntensity hi]
  held := by
    obtain ⟨hlc, -⟩ := h.sampleCommit_frame hi
    change decode s.cfg.cmdMap (Machine.sampleCommit s).lc = i
    rw [hlc]
    exact h.held

theorem Holding.iterate {i : Instr} {s : State} (hi : isIntensity i) (h : Holding i s) (n : Nat) :
    Holding i (Machine.sampleCommit^[n] s) := by
  induction n with
  | zero => exact h
  | succ n ih =>
    rw [Function.iterate_succ_apply']
    exact ih.sampleCommit hi

/-- Two steps for each iteration, while RX is silent. -/
theorem Holding.run {i : Instr} {s : State} (hi : isIntensity i) (h : Holding i s) (hsched : s.sched = []) (n : Nat) :
    Host.Core.run Sys2Proof.core (2 * n) s = .next (Machine.sampleCommit^[n] s) := by
  induction n generalizing s with
  | zero => rfl
  | succ n ih => exact (run_sampleCommit_silent h.wf h.ph hsched (2 * n)).trans (ih (h.sampleCommit hi) hsched)

/-- The configuration, LC and OS through any number of iterations. -/
theorem Holding.iterate_frame {i : Instr} {s : State} (hi : isIntensity i) (h : Holding i s) (n : Nat) :
    (Machine.sampleCommit^[n] s).cfg = s.cfg ∧ (Machine.sampleCommit^[n] s).lc = s.lc ∧
      (Machine.sampleCommit^[n] s).os = s.os := by
  induction n with
  | zero => exact ⟨rfl, rfl, rfl⟩
  | succ n ih =>
    obtain ⟨hcfg, hlc, hos⟩ := ih
    obtain ⟨hlc', hos'⟩ := (h.iterate hi n).sampleCommit_frame hi
    rw [Function.iterate_succ_apply']
    exact ⟨hcfg, hlc'.trans hlc, hos'.trans hos⟩

/-- Each iteration increments the own counter once (R145). -/
theorem Holding.iterate_ownCounter {i : Instr} {s : State} (hi : isIntensity i) (h : Holding i s) (n : Nat) :
    ownCounter i (Machine.sampleCommit^[n] s) = (incCnt s.cfg)^[n] (ownCounter i s) := by
  induction n with
  | zero => rfl
  | succ n ih =>
    obtain ⟨hcfg, -, -⟩ := h.iterate_frame hi n
    rw [Function.iterate_succ_apply', Function.iterate_succ_apply', (h.iterate hi n).sampleCommit_eq,
      ownCounter_afterCommit hi, ← ih, ← hcfg]
    rfl

/-- Iteration `n + 1` is an edge when the counter, having counted `n` iterations, is 0. -/
theorem Holding.isEdge_iterate {i : Instr} {s : State} (hi : isIntensity i) (h : Holding i s)
    (hzero : ownCounter i s = 0) (n : Nat) :
    isEdge i (Machine.sampleCommit^[n] s) = ((incCnt s.cfg)^[n] 0 == 0) := by
  rw [isEdge_eq_ownCounter hi, h.iterate_ownCounter hi n, hzero]

/-- An iteration that is an edge. -/
theorem Holding.sampleCommit_of_edge {i : Instr} {s : State} (h : Holding i s) (hedge : isEdge i s = true) :
    (Machine.sampleCommit s).dl = edgeDuty i s.dl ∧ (Machine.sampleCommit s).tr = reloadOf s.cfg (edgeDuty i s.dl) ∧
      dutyLines (Machine.sampleCommit s).trace = dutyLines s.trace + 1 := by
  rw [h.sampleCommit_eq]
  exact afterCommit_of_edge (s := sampleCommand s) (isEdge_sampleCommand i s ▸ hedge)

/-- One that is not. -/
theorem Holding.sampleCommit_of_not_edge {i : Instr} {s : State} (h : Holding i s) (hheld : isEdge i s = false) :
    (Machine.sampleCommit s).dl = s.dl ∧ (Machine.sampleCommit s).tr = s.tr ∧
      dutyLines (Machine.sampleCommit s).trace = dutyLines s.trace := by
  rw [h.sampleCommit_eq]
  exact afterCommit_of_not_edge (s := sampleCommand s) (isEdge_sampleCommand i s ▸ hheld)

/-- The events of an iteration. -/
theorem Holding.sampleCommit_trace {i : Instr} {s : State} (hi : isIntensity i) (h : Holding i s) :
    (Machine.sampleCommit s).trace =
      s.trace ++ if isEdge i s then edgeEvents s.cfg (edgeDuty i s.dl) else [] := by
  rw [h.sampleCommit_eq, afterCommit_trace, commitEvents_of_not_movement (isMovement_of_isIntensity hi),
    isEdge_sampleCommand]
  rfl

/-- Under SATURATE the first iteration is an edge and no later one (R149): the counter never returns to 0. -/
theorem Holding.saturate {i : Instr} {s : State} (hi : isIntensity i) (h : Holding i s) (hzero : ownCounter i s = 0)
    (hovf : s.cfg.cntOvf = .saturate) (n : Nat) :
    (Machine.sampleCommit^[n + 1] s).dl = edgeDuty i s.dl ∧
      (Machine.sampleCommit^[n + 1] s).tr = reloadOf s.cfg (edgeDuty i s.dl) ∧
      (Machine.sampleCommit^[n + 1] s).trace = s.trace ++ edgeEvents s.cfg (edgeDuty i s.dl) := by
  induction n with
  | zero =>
    have hedge : isEdge i s = true := h.isEdge_iterate hi hzero 0
    obtain ⟨hdl, htr, -⟩ := h.sampleCommit_of_edge hedge
    rw [Nat.zero_add, Function.iterate_one, h.sampleCommit_trace hi, if_pos hedge]
    exact ⟨hdl, htr, rfl⟩
  | succ n ih =>
    have hmax := Config.cntMax_pos h.wf
    rw [Config.cntMax] at hmax
    have hheld : isEdge i (Machine.sampleCommit^[n + 1] s) = false := by
      rw [h.isEdge_iterate hi hzero, incCnt_iterate_saturate hovf, beq_eq_false_iff_ne]
      omega
    have hn := h.iterate hi (n + 1)
    obtain ⟨hdl, htr, -⟩ := hn.sampleCommit_of_not_edge hheld
    have htrace := hn.sampleCommit_trace hi
    rw [hheld, if_neg Bool.false_ne_true, List.append_nil] at htrace
    rw [Function.iterate_succ_apply', hdl, htr, htrace]
    exact ih

/-- Under WRAP iteration `n + 2` is an edge exactly when `2^CNT_W` divides `n + 1` (R149, R253). -/
theorem Holding.wrap {i : Instr} {s : State} (hi : isIntensity i) (h : Holding i s) (hzero : ownCounter i s = 0)
    (hovf : s.cfg.cntOvf = .wrap) (n : Nat) :
    (Machine.sampleCommit^[n + 1] s).dl = (edgeDuty i)^[n / 2 ^ s.cfg.cntW + 1] s.dl ∧
      dutyLines (Machine.sampleCommit^[n + 1] s).trace = dutyLines s.trace + (n / 2 ^ s.cfg.cntW + 1) := by
  induction n with
  | zero =>
    obtain ⟨hdl, -, hlines⟩ := h.sampleCommit_of_edge (h.isEdge_iterate hi hzero 0)
    rw [Nat.zero_add, Function.iterate_one, Nat.zero_div]
    exact ⟨hdl, hlines⟩
  | succ n ih =>
    obtain ⟨ihdl, ihlines⟩ := ih
    have hn := h.iterate hi (n + 1)
    have hcount := h.isEdge_iterate hi hzero (n + 1)
    rw [incCnt_iterate_wrap hovf] at hcount
    rw [Function.iterate_succ_apply', Nat.succ_div]
    by_cases hdvd : 2 ^ s.cfg.cntW ∣ n + 1
    · obtain ⟨hdl, -, hlines⟩ := hn.sampleCommit_of_edge (by rw [hcount, Nat.mod_eq_zero_of_dvd hdvd]; rfl)
      rw [if_pos hdvd, hdl, hlines, ihdl, ihlines,
        Function.iterate_succ_apply' (edgeDuty i) (n / 2 ^ s.cfg.cntW + 1)]
      exact ⟨rfl, rfl⟩
    · have hmod : (n + 1) % 2 ^ s.cfg.cntW ≠ 0 := fun hmod => hdvd (Nat.dvd_of_mod_eq_zero hmod)
      obtain ⟨hdl, -, hlines⟩ := hn.sampleCommit_of_not_edge (hcount.trans (beq_eq_false_iff_ne.mpr hmod))
      rw [if_neg hdvd, hdl, hlines]
      exact ⟨ihdl, ihlines⟩

/-- The counter of the other intensity command is 0 after each iteration (R105). -/
theorem Holding.iterate_otherCounter {i : Instr} {s : State} (hi : isIntensity i) (h : Holding i s) (n : Nat) :
    (isUp i = true → (Machine.sampleCommit^[n + 1] s).cd = 0) ∧
      (isDown i = true → (Machine.sampleCommit^[n + 1] s).ci = 0) := by
  rw [Function.iterate_succ_apply', (h.iterate hi n).sampleCommit_eq]
  obtain rfl | rfl := hi
  · exact ⟨fun _ => rfl, nofun⟩
  · exact ⟨nofun, fun _ => rfl⟩

/-- Settles O39. -/
theorem heldUpUnderSaturate : Obligations.HeldUpUnderSaturate := by
  intro s n hwf hovf hph hsched hheld hzero
  have hs : Holding .intensityUp s := ⟨hwf, hph, hheld⟩
  have hup : isIntensity .intensityUp := .inl rfl
  obtain ⟨-, hlc, hos⟩ := hs.iterate_frame hup (n + 1)
  obtain ⟨hdl, htr, htrace⟩ := hs.saturate hup hzero hovf n
  have hci := hs.iterate_ownCounter hup (n + 1)
  rw [show ownCounter .intensityUp s = 0 from hzero, incCnt_iterate_saturate hovf] at hci
  refine ⟨_, hs.run hup hsched (n + 1), ?_, hci, (hs.iterate_otherCounter hup n).1 rfl, ?_,
    (hs.iterate hup (n + 1)).ph, hlc, hos⟩
  · rw [hdl, edgeDuty, dutyUp_val]
  · rw [htrace, htr, hdl]
    rfl

/-- Settles O40. -/
theorem heldUpUnderWrap : Obligations.HeldUpUnderWrap := by
  intro s n hwf hovf hph hsched hheld hzero
  have hs : Holding .intensityUp s := ⟨hwf, hph, hheld⟩
  have hup : isIntensity .intensityUp := .inl rfl
  obtain ⟨-, hlc, hos⟩ := hs.iterate_frame hup (n + 1)
  obtain ⟨hdl, hlines⟩ := hs.wrap hup hzero hovf n
  have hci := hs.iterate_ownCounter hup (n + 1)
  rw [show ownCounter .intensityUp s = 0 from hzero, incCnt_iterate_wrap hovf] at hci
  exact ⟨_, hs.run hup hsched (n + 1), by rw [hdl, edgeDuty_up_iterate], hci, (hs.iterate_otherCounter hup n).1 rfl, hlines,
    (hs.iterate hup (n + 1)).ph, hlc, hos⟩

/-- Settles O41. -/
theorem heldDownFires : Obligations.HeldDownFires := by
  intro s n hwf hph hsched hheld hzero
  have hs : Holding .intensityDown s := ⟨hwf, hph, hheld⟩
  have hdown : isIntensity .intensityDown := .inr rfl
  obtain ⟨-, hlc, hos⟩ := hs.iterate_frame hdown (n + 1)
  have hcd := hs.iterate_ownCounter hdown (n + 1)
  rw [show ownCounter .intensityDown s = 0 from hzero] at hcd
  refine ⟨_, hs.run hdown hsched (n + 1), (hs.iterate_otherCounter hdown n).2 rfl, (hs.iterate hdown (n + 1)).ph, hlc, hos,
    fun hovf => ?_, fun hovf => ?_⟩
  · obtain ⟨hdl, -, htrace⟩ := hs.saturate hdown hzero hovf n
    rw [incCnt_iterate_saturate hovf] at hcd
    exact ⟨by rw [hdl, edgeDuty, dutyDown_val], hcd, by rw [htrace, dutyLines_append]; rfl⟩
  · obtain ⟨hdl, hlines⟩ := hs.wrap hdown hzero hovf n
    rw [incCnt_iterate_wrap hovf] at hcd
    exact ⟨by rw [hdl, edgeDuty_down_iterate], hcd, hlines⟩

/-- An iteration neither reads nor writes the moves still to come. -/
theorem sampleCommit_setSched (s : State) (v : List Move) :
    sampleCommit (s.setSched v) = (sampleCommit s).setSched v :=
  afterCommit_setSched (heldInstr s) (sampleCommand s) v

/-- Writing the byte that LC holds changes nothing, so the run is two iterations. -/
theorem Holding.run_repeated_byte {i : Instr} {s : State} (hi : isIntensity i) (h : Holding i s) {rest : List Move}
    (hsched : s.sched = [.own, .own, .rx s.lc, .own, .own] ++ rest) :
    Host.Core.run Sys2Proof.core 5 s = .next ((Machine.sampleCommit^[2] s).setSched rest) := by
  have hone := h.sampleCommit hi
  obtain ⟨hlc, -⟩ := h.sampleCommit_frame hi
  have hrx : step ((Machine.sampleCommit s).setSched (.rx s.lc :: .own :: .own :: rest)) =
      .next ((Machine.sampleCommit s).setSched (.own :: .own :: rest)) := by
    rw [rxWritesLatestCommandOnly ((Machine.sampleCommit s).setSched (.rx s.lc :: .own :: .own :: rest)) s.lc _ hone.wf rfl,
      ← hlc]
    rfl
  calc Host.Core.run Sys2Proof.core 5 s
      = Host.Core.run Sys2Proof.core 3 ((Machine.sampleCommit s).setSched s.sched.tail.tail) :=
        run_sampleCommit h.wf h.ph (by rw [hsched]; rfl) (by rw [hsched]; rfl) 3
    _ = Host.Core.run Sys2Proof.core 3 ((Machine.sampleCommit s).setSched (.rx s.lc :: .own :: .own :: rest)) := by
        rw [hsched]
        rfl
    _ = Host.Core.run Sys2Proof.core 2 ((Machine.sampleCommit s).setSched (.own :: .own :: rest)) := run_succ hrx 2
    _ = Host.Core.run Sys2Proof.core 0 ((Machine.sampleCommit^[2] s).setSched rest) := by
        rw [run_sampleCommit (s := (Machine.sampleCommit s).setSched (.own :: .own :: rest)) hone.wf hone.ph rfl rfl 0,
          sampleCommit_setSched]
        rfl

/-- Settles O46: the COMMIT of the first byte leaves CI at 1, so the second is no edge. -/
theorem repeatedByteDoesNotRearm : Obligations.RepeatedByteDoesNotRearm := by
  intro s rest hwf hph hsched hheld hzero
  have hs : Holding .intensityUp s := ⟨hwf, hph, hheld⟩
  have hup : isIntensity .intensityUp := .inl rfl
  obtain ⟨-, hlc, -⟩ := hs.iterate_frame hup 2
  obtain ⟨hdl, -, hlines⟩ := hs.sampleCommit_of_edge (hs.isEdge_iterate hup hzero 0)
  have hone : isEdge .intensityUp (sampleCommit s) = false := by
    rw [show sampleCommit s = sampleCommit^[1] s from rfl, hs.isEdge_iterate hup hzero, Function.iterate_one,
      incCnt_zero hwf]
    rfl
  obtain ⟨hdl', -, hlines'⟩ := (hs.sampleCommit hup).sampleCommit_of_not_edge hone
  refine ⟨_, hs.run_repeated_byte hup hsched, ?_, hlines'.trans hlines, hlc, (hs.iterate hup 2).ph, rfl⟩
  exact congrArg Fin.val (hdl'.trans hdl)

end Sys2Proof.Machine
end

section
/-! PROOF. The statements about orders and iterations: lost and overwritten bytes (`spec/20_memory.md` R59, R60), SC before its
first SAMPLE (`spec/10_state.md` R28), independence (R152), and the idle loop, fairness and repetition of
`spec/40_iteration.md` R111, R112 and R114. -/

namespace Sys2Proof.Machine

/-! ### Bytes -/

/-- A COMMIT that clears LC does the same whatever LC holds (R115). -/
theorem afterCommit_setLc_of_clears {i : Instr} {s : State} (h : commitClearsLc s.cfg i = true) (b : Byte) :
    afterCommit i (s.setLc b) = afterCommit i s := by
  obtain ⟨t, ht, -, hclear⟩ := rxCommutesWithCommit i s b
  obtain ⟨-, hlost⟩ := hclear h
  rw [eq_afterCommit ht] at hlost
  exact (eq_afterCommit hlost).symm

/-- Settles O48: the COMMIT clears the byte that came before it. -/
theorem lostByteAfterDefaultSample : Obligations.LostByteAfterDefaultSample := by
  intro s b rest hwf hph hsched hclear
  have hlc : (sampleCommit s).lc = noneByte := if_pos hclear
  refine ⟨(sampleCommit s).setSched rest, ?_, hlc, ?_⟩
  · have hsample := step_sample hwf hph (by rw [hsched]; rfl)
    rw [hsched] at hsample
    have hrx := step_rx (s := (sampleCommand s).setSched (.rx b :: .own :: rest)) hwf rfl
    have hcommit := step_commit (s := ((sampleCommand s).setLc b).setSched (.own :: rest)) hwf rfl rfl
    have hlost : afterCommit (heldInstr s) ((sampleCommand s).setLc b) = sampleCommit s :=
      afterCommit_setLc_of_clears (s := sampleCommand s) hclear b
    rw [afterCommit_setSched] at hcommit
    calc Host.Core.run Sys2Proof.core 3 s
        = Host.Core.run Sys2Proof.core 2 ((sampleCommand s).setSched (.rx b :: .own :: rest)) := run_succ hsample 2
      _ = Host.Core.run Sys2Proof.core 1 (((sampleCommand s).setLc b).setSched (.own :: rest)) := run_succ hrx 1
      _ = Host.Core.run Sys2Proof.core 0 ((afterCommit (heldInstr s) ((sampleCommand s).setLc b)).setSched rest) :=
        run_succ hcommit 0
      _ = .next ((sampleCommit s).setSched rest) := by
        rw [← hlost]
        rfl
  · have hrun := run_sampleCommit (s := s.setSched (.own :: .own :: rest)) hwf hph rfl rfl 0
    rw [sampleCommit_setSched] at hrun
    exact hrun

/-- A row of RX steps leaves some byte in LC and changes nothing else (R53). -/
theorem run_rx_row {bs : List Byte} {rest : List Move} {s : State} (hwf : s.cfg.wf = true)
    (hsched : s.sched = bs.map .rx ++ rest) (k : Nat) :
    ∃ c, Host.Core.run Sys2Proof.core (bs.length + k) s = Host.Core.run Sys2Proof.core k ((s.setLc c).setSched rest) := by
  induction bs generalizing s with
  | nil =>
    have hrest : s.sched = rest := hsched
    exact ⟨s.lc, by rw [List.length_nil, Nat.zero_add, ← hrest]; rfl⟩
  | cons b bs ih =>
    have hrx : step s = .next ((s.setLc b).setSched (bs.map .rx ++ rest)) := by
      rw [step_rx hwf (b := b) (by rw [hsched]; rfl), hsched]
      rfl
    obtain ⟨c, hc⟩ := ih (s := (s.setLc b).setSched (bs.map .rx ++ rest)) hwf rfl
    refine ⟨c, ?_⟩
    rw [List.length_cons, Nat.add_right_comm, run_succ hrx, hc]
    rfl

/-- The last byte of a row is the one that LC holds after it. -/
theorem run_rx_row_last {bs : List Byte} {b : Byte} {rest : List Move} {s : State} (hwf : s.cfg.wf = true)
    (hsched : s.sched = bs.map .rx ++ .rx b :: rest) (k : Nat) :
    Host.Core.run Sys2Proof.core (bs.length + (k + 1)) s = Host.Core.run Sys2Proof.core k ((s.setLc b).setSched rest) := by
  obtain ⟨c, hc⟩ := run_rx_row hwf hsched (k + 1)
  have hrx := step_rx (s := (s.setLc c).setSched (.rx b :: rest)) hwf rfl
  rw [hc, run_succ hrx]
  rfl

/-- Settles O49: the row leaves its last byte in LC; in a pause the end of the pause comes before the SAMPLE. -/
theorem lastByteWins : Obligations.LastByteWins := by
  intro s bs b rest hwf
  refine ⟨fun hph hsched => ?_, fun hph hsched => ?_⟩
  · have hsample := step_sample (s := (s.setLc b).setSched (.own :: rest)) hwf hph rfl
    rw [run_rx_row_last hwf hsched 1, run_succ hsample]
    rfl
  · have hdelay := step_delay (s := (s.setLc b).setSched (.own :: .own :: rest)) hwf hph rfl
    have hsample := step_sample (s := ((s.setLc b).setPh .sample).setSched (.own :: rest)) hwf rfl rfl
    calc Host.Core.run Sys2Proof.core (bs.length + 3) s
        = Host.Core.run Sys2Proof.core 2 ((s.setLc b).setSched (.own :: .own :: rest)) := run_rx_row_last hwf hsched 2
      _ = Host.Core.run Sys2Proof.core 1 (((s.setLc b).setPh .sample).setSched (.own :: rest)) := run_succ hdelay 1
      _ = .next { s with lc := b, sc := b, ph := .commit, sched := rest } := run_succ hsample 0

/-! ### SC -/

/-- Settles O50: of the three kinds of step outside COMMIT, RX and the end of a pause carry the other SC along, and SAMPLE
overwrites it. -/
theorem sampledCommandNotReadBeforeWritten : Obligations.SampledCommandNotReadBeforeWritten := by
  intro s t v hph h
  obtain ⟨hwf, ⟨b, hrx, rfl⟩ | ⟨hown, hsample, rfl⟩ | ⟨-, hcommit, -⟩ | ⟨hown, hdelay, rfl⟩⟩ := step_cases h
  · exact (step_rx (s := s.setSc v) hwf hrx).trans (congrArg Host.Outcome.next (if_neg hph).symm)
  · exact (step_sample (s := s.setSc v) hwf hsample hown).trans (congrArg Host.Outcome.next (if_pos rfl).symm)
  · exact absurd hcommit hph
  · exact (step_delay (s := s.setSc v) hwf hdelay hown).trans (congrArg Host.Outcome.next (if_neg (by nofun)).symm)

/-! ### Independence of the two families -/

/-- Outside the movement commands OS stays (R23). -/
theorem commitOs_of_not_movement {i : Instr} (hi : isMovement i = false) (cfg : Config) (os : Byte) :
    commitOs cfg i os = os := by
  cases i with
  | intensityUp | intensityDown | defaultCmd _ => rfl
  | forward | backward | toggleLow | toggleHigh => cases hi

/-- OS is the same when every other command is left out. -/
theorem afterCommits_filter_os (is : List Instr) {s u : State} (hos : u.os = s.os) (hcfg : u.cfg = s.cfg) :
    (afterCommits (is.filter isMovement) u).os = (afterCommits is s).os := by
  induction is generalizing s u with
  | nil => exact hos
  | cons i is ih =>
    cases hi : isMovement i with
    | true =>
      rw [List.filter_cons_of_pos hi, afterCommits_cons, afterCommits_cons]
      exact ih (by rw [afterCommit_os, afterCommit_os, hos, hcfg]) hcfg
    | false =>
      rw [List.filter_cons_of_neg (by simp [hi]), afterCommits_cons]
      exact ih (by rw [afterCommit_os, commitOs_of_not_movement hi, hos]) hcfg

/-- Two states with the same duty registers, counters and parameters. -/
structure SameDuty (s v : State) : Prop where
  cfg : v.cfg = s.cfg
  dl : v.dl = s.dl
  tr : v.tr = s.tr
  ci : v.ci = s.ci
  cd : v.cd = s.cd

/-- The same command keeps them the same: its edge test and its new values read nothing else (R141, R143). -/
theorem SameDuty.afterCommit {s v : State} (h : SameDuty s v) (i : Instr) :
    SameDuty (afterCommit i s) (afterCommit i v) := by
  have hedge : isEdge i v = isEdge i s := by
    rw [Bool.eq_iff_iff, isEdge_iff, isEdge_iff, h.ci, h.cd]
  refine ⟨h.cfg, ?_, ?_, ?_, ?_⟩
  · rw [afterCommit_dl, afterCommit_dl, hedge, h.dl]
  · rw [afterCommit_tr, afterCommit_tr, hedge, h.dl, h.tr, h.cfg]
  · rw [afterCommit_ci, afterCommit_ci, h.cfg, h.ci]
  · rw [afterCommit_cd, afterCommit_cd, h.cfg, h.cd]

/-- So do a movement command and a DEFAULT: both clear the counters and leave DL and TR alone (R128, R170). -/
theorem SameDuty.afterCommit_movement {s v : State} (h : SameDuty s v) {i : Instr} (hi : isMovement i = true) (b : Byte) :
    SameDuty (Machine.afterCommit i s) (Machine.afterCommit (.defaultCmd b) v) := by
  cases i with
  | forward | backward | toggleLow | toggleHigh => exact ⟨h.cfg, h.dl, h.tr, rfl, rfl⟩
  | intensityUp | intensityDown | defaultCmd _ => cases hi

/-- Every movement command of a list may be a DEFAULT instead. -/
theorem SameDuty.afterCommits_map {s v : State} (h : SameDuty s v) (b : Byte) (is : List Instr) :
    SameDuty (afterCommits is s) (afterCommits (is.map fun i => if isMovement i then .defaultCmd b else i) v) := by
  induction is generalizing s v with
  | nil => exact h
  | cons i is ih =>
    rw [List.map_cons, afterCommits_cons, afterCommits_cons]
    cases hi : isMovement i with
    | true => exact ih (h.afterCommit_movement hi b)
    | false => exact ih (h.afterCommit i)

/-- Settles O51. -/
theorem commandFamiliesIndependent : Obligations.CommandFamiliesIndependent := by
  intro is s
  have hduty := SameDuty.afterCommits_map (s := s) ⟨rfl, rfl, rfl, rfl, rfl⟩ 0x00#8 is
  exact ⟨_, _, _, commitAll_eq_afterCommits is s, commitAll_eq_afterCommits _ s, afterCommits_filter_os is rfl rfl,
    commitAll_eq_afterCommits _ s, hduty.dl, hduty.tr, hduty.ci, hduty.cd⟩

/-! ### Idle, fair and repeated iterations -/

/-- An idle iteration. -/
theorem sampleCommit_idle {s : State} (hph : s.ph = .sample) (hheld : heldInstr s = .defaultCmd s.lc) :
    sampleCommit s = { s with lc := 0x00#8, ci := 0, cd := 0, sc := s.lc } := by
  obtain ⟨-, hdefault⟩ := defaultResult
  calc sampleCommit s = afterCommit (.defaultCmd s.lc) (sampleCommand s) := by rw [sampleCommit, hheld]
    _ = { s with lc := 0x00#8, ci := 0, cd := 0, sc := s.lc, ph := .sample } :=
      (eq_afterCommit (hdefault s.lc (sampleCommand s))).symm
    _ = { s with lc := 0x00#8, ci := 0, cd := 0, sc := s.lc } := by rw [← hph]

/-- Settles O52: from none and zero counters the idle iteration is a fixed point. -/
theorem idleIteration : Obligations.IdleIteration := by
  intro s hwf hph hsched hheld
  have hidle := sampleCommit_idle hph hheld
  refine ⟨?_, fun hlc hsc hci hcd n => ?_⟩
  · rw [run_sampleCommit_silent hwf hph hsched 0, hidle]
    rfl
  · have hfix : sampleCommit s = s := by
      rw [hidle]
      cases s
      cases hlc
      cases hsc
      cases hci
      cases hcd
      rfl
    induction n with
    | zero => rfl
    | succ n ih => rw [Nat.mul_succ, run_sampleCommit_silent hwf hph hsched, hfix, ih]

/-- The phase after the block's own step (R101, R107, R109). -/
def nextPhase (s : State) : Phase :=
  match s.ph with
  | .sample => .commit
  | .commit => if isMovement (sampledInstr s) then .delay else .sample
  | .delay => .sample

/-- The block's own step moves the phase on. -/
theorem step_own_ph {s : State} (hwf : s.cfg.wf = true) (hown : nextMove s.sched = .own) :
    ∃ t, step s = .next t ∧ t.ph = nextPhase s := by
  rw [nextPhase]
  cases hph : s.ph with
  | sample => exact ⟨_, step_sample hwf hph hown, rfl⟩
  | commit => exact ⟨_, step_commit hwf hph hown, rfl⟩
  | delay => exact ⟨_, step_delay hwf hph hown, rfl⟩

/-- Only RX steps can come before it, and each takes one move off the schedule. -/
theorem run_own_ph (ms : List Move) {s : State} (hwf : s.cfg.wf = true) (hsched : s.sched = ms) :
    ∃ k t, k ≤ ms.length ∧ Host.Core.run Sys2Proof.core (k + 1) s = .next t ∧ t.ph = nextPhase s := by
  induction ms generalizing s with
  | nil =>
    obtain ⟨t, hstep, hph⟩ := step_own_ph hwf (by rw [hsched]; rfl)
    exact ⟨0, t, Nat.le_refl 0, run_succ hstep 0, hph⟩
  | cons m ms ih =>
    cases m with
    | own =>
      obtain ⟨t, hstep, hph⟩ := step_own_ph hwf (by rw [hsched]; rfl)
      exact ⟨0, t, Nat.zero_le _, run_succ hstep 0, hph⟩
    | rx b =>
      have hrx := step_rx hwf (b := b) (by rw [hsched]; rfl)
      obtain ⟨k, t, hk, hrun, hph⟩ := ih (s := (s.setLc b).setSched s.sched.tail) hwf (by rw [hsched]; rfl)
      exact ⟨k + 1, t, Nat.succ_le_succ hk, (run_succ hrx (k + 1)).trans hrun, hph⟩

/-- Settles O53. -/
theorem everyPhaseEnds : Obligations.EveryPhaseEnds := by
  intro s hwf
  obtain ⟨k, t, hk, hrun, hph⟩ := run_own_ph s.sched hwf rfl
  exact ⟨k, t, hk, hrun, hph⟩

/-- Settles O54: LC keeps its byte, so the second SAMPLE copies into SC what SC already holds. -/
theorem heldCommandRepeats : Obligations.HeldCommandRepeats := by
  intro s hwf hph hsched hkeep
  have hlc : (sampleCommit s).lc = s.lc := if_neg (Bool.eq_false_iff.mp hkeep)
  have hsame : heldInstr (iteration s) = heldInstr s := congrArg (decode s.cfg.cmdMap) hlc
  have hagain : sampleCommand (iteration s) = (sampleCommit s).setPh .commit := by
    rw [sampleCommand, show (iteration s).lc = (iteration s).sc from hlc]
    rfl
  have hsecond : iteration (iteration s) = (afterCommit (heldInstr s) ((sampleCommit s).setPh .commit)).setPh .sample := by
    rw [iteration, sampleCommit, hsame, hagain]
  refine ⟨sampleCommit s, afterCommit (heldInstr s) ((sampleCommit s).setPh .commit), exec_eq_afterCommit _ _,
    scriptIter_eq hph, hlc, exec_eq_afterCommit _ _, ?_, ?_⟩
  · exact (scriptIter_eq (s := iteration s) rfl).trans (congrArg some hsecond)
  · exact (if_neg (Bool.eq_false_iff.mp hkeep)).trans hlc

end Sys2Proof.Machine
end

section
/-! PROOF. The statements about the outputs, `spec/10_state.md` R35 to R38: the ports are levels of OS and TR, and the bytes
sent are those of the status events, so what a COMMIT sends is read off its events. -/

namespace Sys2Proof.Machine

/-! ### The ports -/

theorem reload8_toNat (s : State) : s.reload8.toNat = s.tr.toNat % 256 :=
  BitVec.toNat_setWidth 8 s.tr

/-- The exact reload lies between 6 and 256, and is 256 at duty level 0 alone (R25, R254): a `SCALE` is at least 1 and at most
25. -/
theorem State.Inv.reload_bounds {s : State} (h : s.Inv) :
    6 ≤ s.tr.toNat ∧ s.tr.toNat ≤ 256 ∧ (s.tr.toNat = 256 ↔ s.dl = 0) := by
  have hexact := h.reload
  have hlow : s.dl.val * s.cfg.scale ≤ 10 * 25 :=
    Nat.mul_le_mul (Nat.le_of_lt_succ s.dl.isLt) (Config.scale_le h.cfgWf)
  have hzero : s.dl.val * s.cfg.scale = 0 ↔ s.dl = 0 := by
    have hscale := Config.scale_pos h.cfgWf
    rw [Nat.mul_eq_zero, Fin.ext_iff, Fin.val_zero]
    omega
  exact ⟨by omega, by omega, by rw [← hzero]; omega⟩

/-- Settles O55: the low eight bits of a reload between 6 and 256 are 0 at 256 alone. -/
theorem portsShowRegisters : Obligations.PortsShowRegisters := by
  refine ⟨fun s i => ?_, fun s => ⟨rfl, reload8_toNat s⟩, fun s hs => ?_⟩
  · rw [State.led, BitVec.getLsbD, Nat.testBit_eq_decide_div_mod_eq]
  · obtain ⟨hlow, hhigh, hiff⟩ := hs.reload_bounds
    refine ⟨hiff, ?_⟩
    rw [← BitVec.toNat_inj, reload8_toNat, ← hiff, BitVec.toNat_ofNat]
    omega

/-! ### The bytes sent -/

/-- What a COMMIT sends is what its events ask for. -/
theorem serialOut_afterCommit (i : Instr) (s : State) :
    (afterCommit i s).serialOut = s.serialOut ++ (commitEvents i s).flatMap eventBytes := by
  rw [State.serialOut, afterCommit_trace, List.flatMap_append]
  rfl

/-- A movement command sends its status line; asking for the pause sends nothing. -/
theorem flatMap_eventBytes_movement (k : StatusKind) : [Event.status k, .delayReq].flatMap eventBytes = statusBytes k := by
  simp [eventBytes]

/-- An edge sends its duty line; asking for the reload sends nothing. -/
theorem flatMap_eventBytes_edge (cfg : Config) (d : Duty) :
    (edgeEvents cfg d).flatMap eventBytes = statusBytes (.duty (percent d)) := by
  simp [edgeEvents, eventBytes]

/-- What an intensity command sends: on an edge the line of the duty level it leaves. -/
theorem serialOut_intensity {i : Instr} (hi : isIntensity i) (s : State) :
    (afterCommit i s).serialOut =
      s.serialOut ++ if isEdge i s then statusBytes (.duty ((afterCommit i s).dl.val * 10)) else [] := by
  rw [serialOut_afterCommit, commitEvents_of_not_movement (isMovement_of_isIntensity hi)]
  cases hedge : isEdge i s with
  | true => rw [if_pos rfl, if_pos rfl, flatMap_eventBytes_edge, afterCommit_dl, hedge]; rfl
  | false => rfl

/-- Settles O56: the movement commands by the bytes of their own lines, the intensity commands by `serialOut_intensity`. -/
theorem commitSendsStatusLine : Obligations.CommitSendsStatusLine := by
  refine ⟨fun s => ⟨_, exec_eq_afterCommit _ s, ?_⟩, fun s => ⟨_, exec_eq_afterCommit _ s, ?_⟩,
    fun s => ⟨_, exec_eq_afterCommit _ s, ?_⟩, fun s => ⟨_, exec_eq_afterCommit _ s, ?_⟩,
    fun s => ⟨_, exec_eq_afterCommit _ s, ?_⟩, fun s => ⟨_, exec_eq_afterCommit _ s, ?_⟩,
    fun b s => ⟨_, exec_eq_afterCommit _ s, ?_⟩, fun cfg => ?_⟩
  · have hline : statusBytes .frente = [0x46#8, 0x52#8, 0x45#8, 0x4E#8, 0x54#8, 0x45#8, 0x0A#8, 0x0D#8] := by decide
    rw [serialOut_afterCommit, commitEvents, flatMap_eventBytes_movement, hline]
  · have hline : statusBytes .atras = [0x41#8, 0x54#8, 0x52#8, 0x41#8, 0x53#8, 0x0A#8, 0x0D#8] := by decide
    rw [serialOut_afterCommit, commitEvents, flatMap_eventBytes_movement, hline]
  · rw [serialOut_afterCommit, commitEvents, flatMap_eventBytes_movement]
    rfl
  · rw [serialOut_afterCommit, commitEvents, flatMap_eventBytes_movement]
    rfl
  · exact (serialOut_intensity (.inl rfl) s).trans (congrArg _ (if_congr (by simp [isEdge]) rfl rfl))
  · exact (serialOut_intensity (.inr rfl) s).trans (congrArg _ (if_congr (by simp [isEdge]) rfl rfl))
  · rw [serialOut_afterCommit, commitEvents, List.flatMap_nil, List.append_nil]
  · rw [State.serialOut, State.resetWith, List.flatMap_singleton]
    rfl

end Sys2Proof.Machine
end
